-- ==== Sys2Proof/Word.lean ====
section
/-! DEFINITION. The word types of the part: the bytes and fields that travel in frames, and the bounded
indexes (slots, channels, handles). -/

namespace Sys2Proof

/-- One byte of a frame (R175). -/
abbrev Byte := BitVec 8

/-- A two-byte field: terms, module registers, the CRC (R175, R176). -/
abbrev Word16 := BitVec 16

/-- A lease token (R25): 32 bits, 0 is never issued. -/
abbrev Token := BitVec 32

/-- A link address 0 to 15 (R120, R121); hosts have 1 to 15. -/
abbrev Addr := BitVec 4

/-- A tag, 0 to 15 (R43). -/
abbrev Tag := BitVec 4

/-- A slot of the chassis, 0 to 15 (R1). -/
abbrev SlotNo := Fin 16

/-- A channel of a module, 0 to 3 (R1). -/
abbrev ChannelNo := Fin 4

/-- A position in the Lease Table, 0 to 63 (R19). -/
abbrev Handle := Fin 64

/-- The Wait Pool's 64-bit arrival numbers (R49). -/
abbrev Arrival := BitVec 64

/-- An instant of the part's time, in microseconds (assumption 2). -/
abbrev Instant := Nat

end Sys2Proof
end

