-- ==== Sys2Proof/Syntax.lean ====
section
/-! DEFINITION. The commands the part takes, one constructor for each row of spec/opcode_table.json, and
the operands they carry. -/

namespace Sys2Proof

/-- A frame as it stood on the pair (R175): destination, source, sequence number, payload bytes and CRC. The
frame kind byte, the kind byte and the length byte belong to the command that carries the frame. -/
structure Frame where
  dest : Byte
  src : Byte
  seq : Byte
  payload : List Byte
  crc : Word16
  deriving DecidableEq, Repr

/-- What the two address switches of the front panel read (R120, R121). -/
structure Switches where
  node : Addr
  manager : Addr
  deriving DecidableEq, Repr

/-- The two positions of the service switch (R122). -/
inductive Service
  | online
  | service
  deriving DecidableEq, Repr

/-- The lines and switches as they stand at power-on (R16, R120, R121, R122, R174). -/
structure Pins where
  /-- presence line of each slot: asserted -/
  presence : Vector Bool 16
  /-- attention line of each slot: raised -/
  attention : Vector Bool 16
  /-- the link reset line is low -/
  resetLow : Bool
  switches : Switches
  service : Service
  deriving DecidableEq, Repr

/-- A module's answer to a cycle (R133): acceptance, with the word on the data path, or refusal. The word
matters only to a READ. -/
inductive ModuleAnswer
  | accept (word : Word16)
  | refuse
  deriving DecidableEq, Repr

/-- The commands, one for each row of the table, in its order. -/
inductive Instr
  /-- POWER_ON (R42): the lines and switches as they stand. -/
  | powerOn (pins : Pins)
  /-- OPEN (R88). The switch readings count only where the OPEN makes a link clear (R119, R120). -/
  | openSession (sw : Switches) (f : Frame)
  /-- CLOSE (R92). -/
  | closeSession (f : Frame)
  /-- FETCH FAULT (R103). -/
  | fetchFault (f : Frame)
  /-- ACQUIRE (R44). -/
  | acquire (f : Frame)
  /-- RENEW (R33). -/
  | renew (f : Frame)
  /-- RELEASE (R34). -/
  | release (f : Frame)
  /-- CANCEL (R58). -/
  | cancel (f : Frame)
  /-- QUERY (R112). -/
  | query (f : Frame)
  /-- ACCESS (R126). -/
  | access (f : Frame)
  /-- BOOK (R143). -/
  | book (f : Frame)
  /-- UNBOOK (R149). -/
  | unbook (f : Frame)
  /-- REARM (R148). -/
  | rearm (f : Frame)
  /-- PROBE (R114). -/
  | probe (f : Frame)
  /-- CONFIGURE (R117). -/
  | configure (f : Frame)
  /-- RESET CONTROLLER (R119). -/
  | resetController (f : Frame)
  /-- A REQUEST frame whose kind code is not one of the 15 (R108). -/
  | unknownRequestKind (kind : Byte) (f : Frame)
  /-- An ACK frame (R162); its kind byte and payload are not examined (R168). -/
  | ack (kind : Byte) (f : Frame)
  /-- An ended frame, with its frame kind byte and kind byte, that fails a test of R168. -/
  | frameDiscard (frameKind kind : Byte) (f : Frame)
  /-- The frame in reception ends truncated (R167). -/
  | frameTruncated
  /-- The pair is at rest (R159, R169). -/
  | transmitStart
  /-- The second CRC byte has left the pair (R169). The switch readings count only where the end makes a
  link clear (R119, R120). -/
  | transmissionEnd (sw : Switches)
  /-- A bit read back differs from the bit driven (R170). -/
  | contentionLoss
  /-- The link reset line has been low for 10 microseconds (R171); the switches read as given (R120). -/
  | linkResetAssert (sw : Switches)
  /-- The link reset line is released (R171). -/
  | linkResetRelease
  /-- tACK of the attempt awaiting its ACK runs out (R161). -/
  | tackExpiry
  /-- The expiry of the lease with this handle is reached (R31). -/
  | leaseExpiry (h : Handle)
  /-- The grace deadline of this recall group is reached (R76). A group is named by the arrival number of the
  urgent wait record whose recall marked it (assumption 11). -/
  | graceDeadline (group : Arrival)
  /-- The deadline of the wait record with this arrival number is reached (R57). -/
  | waitDeadline (arrival : Arrival)
  /-- The service switch moves to SERVICE (R64). -/
  | switchToService
  /-- The service switch moves to ONLINE (R65). -/
  | switchToOnline
  /-- The presence line of a slot is asserted (R6). -/
  | presenceRise (slot : SlotNo)
  /-- The presence line of a slot is released (R8). -/
  | presenceDrop (slot : SlotNo)
  /-- The settling deadline of a slot is reached (R7). -/
  | settlingDeadline (slot : SlotNo)
  /-- The attention line of a slot is raised (R14). -/
  | attentionRise (slot : SlotNo)
  /-- The attention line of a slot is lowered (R14). -/
  | attentionFall (slot : SlotNo)
  /-- The arbiter takes the lowest pending identification (R130). -/
  | identificationStart
  /-- The arbiter takes the head of the Access Queue (R131). -/
  | accessStartCheck
  /-- The module in a slot answers (R133). -/
  | moduleAnswer (slot : SlotNo) (answer : ModuleAnswer)
  /-- tSILENCE of the cycle in flight runs out (R133). -/
  | silenceExpiry
  /-- A start delimiter byte on the pair (R167). -/
  | startDelimiter
  deriving DecidableEq, Repr

end Sys2Proof
end

