-- ==== Sys2Proof/Config.lean ====
section
/-! DEFINITION. What the part fixes: its table sizes and fixed times, the power-on values of the
configuration record, and the one free value (the order of deadline events that come due together). -/

namespace Sys2Proof.Config

/-- One second of the part's time. -/
def second : Nat := 1000000

/-- One millisecond of the part's time. -/
def millisecond : Nat := 1000

/-- tSETTLE, fixed at 100 ms (00 "Time parameters", R6). -/
def tSettle : Nat := 100000

/-- tSILENCE, fixed at 4 microseconds (00 "Time parameters", R133). -/
def tSilence : Nat := 4

/-- The Session Table holds 8 records (R84). -/
def maxSessions : Nat := 8

/-- The Lease Table holds 64 records (R21). -/
def maxLeases : Nat := 64

/-- The Wait Pool holds 32 records (R49). -/
def maxWaits : Nat := 32

/-- A session has at most 4 outstanding tags (R63). -/
def maxTags : Nat := 4

/-- An Outbound Queue holds at most 8 notices (R155). -/
def maxNotices : Nat := 8

/-- A QUERY answer lists at most 16 holders (R113). -/
def maxHolders : Nat := 16

/-- A frame carries at most 96 payload bytes (R167). -/
def maxPayload : Nat := 96

/-- The product identifier that PROBE reports (R114). -/
def product : Word16 := 620

/-- FREE VALUE (assumption 4): which of the `count` deadline events due at an instant is taken first. The spec leaves
their order open ("either order may occur", R31; "either may be taken first", R76). -/
opaque eventChoice : (now count : Nat) → Nat

end Sys2Proof.Config
end

