-- ==== Sys2Proof/Machine/State.lean ====
section
/-! DEFINITION. The records of the eight blocks of the part, the state that holds them, the reasons a step
can stop, and the state after power-on. -/

namespace Sys2Proof.Machine

/-! ### Resources and holds (R1 to R3) -/

/-- The mode of a hold (R3). -/
inductive Mode
  | shared
  | exclusive
  deriving DecidableEq, Repr

/-- A resource (R1): a channel of a slot, or (with no channel) the slot as a whole, ALL. -/
structure Resource where
  slot : SlotNo
  channel : Option ChannelNo
  deriving DecidableEq, Repr

/-- A hold (R3) claims a resource in a mode. The guard is one (R51). -/
structure Hold where
  resource : Resource
  mode : Mode
  deriving DecidableEq, Repr

/-! ### Slot Directory (R5) -/

/-- The five slot states with the fields that are present only in them (R5). -/
inductive SlotState
  | empty
  | settling (deadline : Instant)
  | identifying
  | ready (channels : BitVec 4) (classCode : Byte)
  | faulted
  deriving DecidableEq, Repr

/-- A slot record (R5): its state and the last levels of its two lines (asserted, raised). -/
structure SlotRecord where
  state : SlotState
  presence : Bool
  attention : Bool
  deriving DecidableEq, Repr

/-! ### Lease Manager (R18, R48) -/

/-- HELD, or RECALLED with its grace deadline (R22) and the group of the recall that set it (R70). -/
inductive LeaseState
  | held
  | recalled (deadline : Instant) (group : Arrival)
  deriving DecidableEq, Repr

/-- A lease record (R18). -/
structure Lease where
  handle : Handle
  holder : Addr
  resource : Resource
  mode : Mode
  token : Token
  state : LeaseState
  /-- seconds -/
  term : Word16
  expiry : Instant
  deriving DecidableEq, Repr

/-- A wait record (R48). -/
structure Wait where
  session : Addr
  tag : Tag
  resource : Resource
  mode : Mode
  term : Word16
  urgent : Bool
  deadline : Instant
  arrival : Arrival
  deriving DecidableEq, Repr

/-- The Lease Manager's records: the Lease Table in grant order (R20), the Wait Pool in pool order (R49) and
the two counters (R25, R49). -/
structure LeaseManager where
  leases : List Lease
  waits : List Wait
  tokenCounter : Token
  arrivalCounter : Arrival
  deriving DecidableEq, Repr

/-! ### Sessions (R83) and their Outbound Queues (R155) -/

/-- The 13 statuses of a response (R111). -/
inductive Status
  | done | granted | deferred | conflict | full | stale | late | recalled | offline | absent | busy
  | noSession | fault
  deriving DecidableEq, Repr

/-- The 11 fault codes (R111). -/
inductive FaultCode
  | malformed | badKind | badResource | badTerm | badAccess | tagInUse | tooManyDeferred | notPermitted
  | configLocked | sequence | badConfig
  deriving DecidableEq, Repr

/-- A fault record (R102); an absent field index is `none`. -/
structure FaultRecord where
  code : FaultCode
  kind : Byte
  seq : Byte
  index : Option (BitVec 4)
  second : Bool
  deriving DecidableEq, Repr

/-- The stored response of a replay record (R95). -/
structure StoredResponse where
  status : Status
  payload : List Byte
  deriving DecidableEq, Repr

/-- How a deferred ACQUIRE ended (R62). -/
inductive Completion
  | granted (handle : Handle) (token : Token) (term : Word16)
  | timedOut
  | vacated
  deriving DecidableEq, Repr

/-- The notices about a lease (R37, R72). -/
inductive LeaseNotice
  | recall | expired | revoked | vacated
  deriving DecidableEq, Repr

/-- A notice (R155): ATTENTION names its slot only (R146); the others name the lease (R37, R72). -/
inductive Notice
  | attention (slot : SlotNo)
  | lease (kind : LeaseNotice) (resource : Resource) (handle : Handle) (token : Token)
  deriving DecidableEq, Repr

/-- What an Outbound Queue entry carries (R155). The LOST flag of a notice is fixed at its first
transmission (R158) and is `none` before it. -/
inductive EntryBody
  | completion (tag : Tag) (outcome : Completion)
  | notice (notice : Notice) (lost : Option Bool)
  deriving DecidableEq, Repr

/-- An entry of an Outbound Queue with its outbound sequence number (R155, R156). -/
structure Entry where
  seq : Byte
  body : EntryBody
  deriving DecidableEq, Repr

/-- The overflow marker (R158). -/
inductive Marker
  | clear | set | reported
  deriving DecidableEq, Repr

/-- A session's Outbound Queue, oldest entry first (R155), its counter (R156), marker (R158) and attempt
count (R161). `contended` is the number of its head while the head's last transmission was lost to contention and the
next has not started (R160, R170). -/
structure OutboundQueue where
  entries : List Entry
  counter : Byte
  marker : Marker
  attempts : Nat
  contended : Option Byte
  deriving DecidableEq, Repr

/-- Session class (R85). -/
inductive SessionClass
  | normal | manager
  deriving DecidableEq, Repr

/-- Delivery state (R163). -/
inductive DeliveryState
  | delivering | stalled
  deriving DecidableEq, Repr

/-- An open session record (R83). The Delivery Unit's queue for the session stands in it (assumption 17). -/
structure Session where
  host : Addr
  cls : SessionClass
  inFlight : Bool
  lastSeq : Byte
  lastKind : Byte
  stored : Option StoredResponse
  tags : List Tag
  fault : Option FaultRecord
  delivery : DeliveryState
  out : OutboundQueue
  deriving DecidableEq, Repr

/-! ### Link Interface (R167, R169, R171) -/

/-- The receive state (R167). -/
inductive ReceiveState
  | idle | receiving
  deriving DecidableEq, Repr

/-- The link-reset condition (R171). -/
inductive LineCondition
  | released | asserted
  deriving DecidableEq, Repr

/-- For whom a response was formed: the open session of its host, no session at all (R87), or a session that
has been closed since, while the frame was in transmission (R94). -/
inductive Owner
  | session | noSession | closed
  deriving DecidableEq, Repr

/-- A response (R87). `taken` tells the two groups of R159 apart: true for a response to a request taken as
new or to an OPEN under R88 or R90, false for every other. `clears` marks the DONE of RESET CONTROLLER on
whose end the committed link clear hangs (R119). -/
structure Response where
  host : Addr
  seq : Byte
  status : Status
  payload : List Byte
  taken : Bool
  owner : Owner
  clears : Bool
  deriving DecidableEq, Repr

/-- What the transmitter is sending: a response, or the Outbound Queue entry with this number of the session
of this host; `isOpen` turns false when that session is closed meanwhile (R165). -/
inductive TxItem
  | response (r : Response)
  | entry (host : Addr) (seq : Byte) (isOpen : Bool)
  deriving DecidableEq, Repr

/-- The frame in transmission, with its bytes on the pair (R169, R175). -/
structure Transmission where
  item : TxItem
  wire : List Byte
  deriving DecidableEq, Repr

/-- The Link Interface's records, with the responses formed and not yet transmitted in order of formation
(R159). -/
structure Link where
  receive : ReceiveState
  resetLine : LineCondition
  tx : Option Transmission
  responses : List Response
  deriving DecidableEq, Repr

/-! ### Backplane Sequencer (R127, R132) -/

/-- An operation of ACCESS (R125). -/
inductive Operation
  | read
  | write (data : Word16)
  deriving DecidableEq, Repr

/-- An entry of the Access Queue (R127). -/
structure AccessEntry where
  session : Addr
  handle : Handle
  token : Token
  channel : ChannelNo
  op : Operation
  register : Byte
  slot : SlotNo
  deriving DecidableEq, Repr

/-- What is presented to a module in a backplane cycle (R130, R133, R177). -/
structure Presented where
  slot : SlotNo
  channel : ChannelNo
  op : Operation
  register : Byte
  deriving DecidableEq, Repr

/-- What the cycle in flight does: identifies a slot (R130), or carries out an ACCESS, with its discard mark
(R132). -/
inductive CycleKind
  | identify (slot : SlotNo)
  | access (session : Addr) (slot : SlotNo) (channel : ChannelNo) (op : Operation) (register : Byte)
      (discard : Bool)
  deriving DecidableEq, Repr

/-- The cycle in flight and the instant at which tSILENCE runs out (R133). -/
structure Cycle where
  kind : CycleKind
  silence : Instant
  deriving DecidableEq, Repr

/-- The Sequencer's records (07, introduction): the Access Queue, the cycle in flight, the guard, and the
pending identification set, kept in ascending order (R129). -/
structure Backplane where
  queue : List AccessEntry
  cycle : Option Cycle
  guardHold : Option Hold
  pendingIds : List SlotNo
  deriving DecidableEq, Repr

/-! ### Booking Unit (R142) -/

/-- The mode of a booking (R142). -/
inductive BookingMode
  | once | standing
  deriving DecidableEq, Repr

/-- The state of a booking (R142). -/
inductive BookingState
  | armed | fired
  deriving DecidableEq, Repr

/-- A booking (R142). -/
structure Booking where
  session : Addr
  slot : SlotNo
  mode : BookingMode
  state : BookingState
  deriving DecidableEq, Repr

/-! ### Delivery Unit (R155, R159, R161) -/

/-- The outbound entry in flight: its session and number, the tACK (in ms) it is sent with (R116), and, once
its transmission has ended, the instant at which its wait ends (R161). -/
structure Attempt where
  host : Addr
  seq : Byte
  tAck : Byte
  deadline : Option Instant
  deriving DecidableEq, Repr

/-- At most one entry is in flight across all sessions; the round-robin pointer names a host or none (R159). -/
structure Delivery where
  attempt : Option Attempt
  pointer : Option Addr
  deriving DecidableEq, Repr

/-! ### Panel Block (R115, R120 to R122) -/

/-- The configuration record (R115), its fields as CONFIGURE carries them (R176). -/
structure ConfigRecord where
  tGrace : Byte
  tAck : Byte
  attempts : Byte
  maxTerm : Word16
  deriving DecidableEq, Repr

/-- The configuration record after power-on (R115). -/
def ConfigRecord.default : ConfigRecord := { tGrace := 10, tAck := 10, attempts := 4, maxTerm := 600 }

/-- The Panel Block's records: the configuration record, the sampled addresses (R120, R121), the recorded
position of the service switch (R122), the address switches as they last read, and whether RESET CONTROLLER
has committed a link clear (R119). -/
structure Panel where
  config : ConfigRecord
  nodeAddress : Addr
  managerAddress : Addr
  service : Service
  switches : Switches
  clearCommitted : Bool
  deriving DecidableEq, Repr

/-! ### The whole state -/

/-- The part. `pending` is the queue of commands that wait, first in, first out; `now` is the part's time. -/
structure State where
  pending : List Instr
  now : Instant
  link : Link
  sessions : List Session
  lm : LeaseManager
  bp : Backplane
  slots : Vector SlotRecord 16
  bookings : List Booking
  delivery : Delivery
  panel : Panel
  deriving DecidableEq, Repr

/-- No command stops the part with a fault: the spec gives every event an effect in every state. -/
inductive Fault
  deriving DecidableEq, Repr

/-- Why a command has no meaning. -/
inductive Refusal
  /-- Raised by an arm of exec whose command has no meaning yet, by the row's mnemonic (safe: no claim about
  the command can be proved). No arm raises it. -/
  | notModelled (mnemonic : String)
  deriving DecidableEq, Repr

/-- An empty Link Interface (R174), its condition taken from the line. -/
def Link.powerOn (resetLow : Bool) : Link :=
  { receive := .idle, resetLine := if resetLow then .asserted else .released, tx := none, responses := [] }

/-- The Lease Manager's records after power-on (R42, R66). -/
def LeaseManager.powerOn : LeaseManager :=
  { leases := [], waits := [], tokenCounter := 1, arrivalCounter := 0 }

/-- The Sequencer's records after power-on (R141). -/
def Backplane.powerOn : Backplane := { queue := [], cycle := none, guardHold := none, pendingIds := [] }

/-- The Delivery Unit's records after power-on (R166). -/
def Delivery.powerOn : Delivery := { attempt := none, pointer := none }

/-- The Panel Block's records after power-on (R115, R120, R121, R122, R174): both switches are sampled and the
position of the service switch is recorded. -/
def Panel.powerOn (sw : Switches) (position : Service) : Panel :=
  { config := .default, nodeAddress := sw.node, managerAddress := sw.manager, service := position,
    switches := sw, clearCommitted := false }

/-- The machine right after power-on with no module seated, no attention line raised, the link reset line
released, the service switch ONLINE and the address switches reading node 2 and manager 1 (DESIGN CHOICE,
assumption 1, UNSAFE: the spec takes all of these from the outside). Every other value is the spec's: R16, R42,
R66, R105, R115, R141, R153, R166, R174. -/
def State.reset : State :=
  { pending := [],
    now := 0,
    link := .powerOn false,
    sessions := [],
    lm := .powerOn,
    bp := .powerOn,
    slots := Vector.replicate 16 { state := .empty, presence := false, attention := false },
    bookings := [],
    delivery := .powerOn,
    panel := .powerOn { node := 2, manager := 1 } .online }

end Sys2Proof.Machine
end

