-- ==== Sys2Proof/Machine/Operands.lean ====
section
/-! DEFINITION. The operands of the requests: the byte fields of a payload (R176), their format checks (R109),
resources with overlap, containment and compatibility (R2, R3), and the resource check (R4). -/

namespace Sys2Proof.Machine

/-- A field index, 0 to 15 (R102). -/
abbrev FieldIndex := BitVec 4

/-- How a request is turned away: with a fault code and the index of the offending field (R101, R102), or with
a status that is no fault (R111). -/
inductive Denial
  | fault (code : FaultCode) (index : Option FieldIndex)
  | status (st : Status)
  deriving DecidableEq, Repr

/-- A payload or a field of the wrong form (R109). -/
def malformed (index : Option FieldIndex) : Denial := .fault .malformed index

/-! ### Byte fields, most significant byte first (R175) -/

/-- A two-byte field. -/
def word16 (hi lo : Byte) : Word16 := hi ++ lo

/-- A token field. -/
def word32 (b3 b2 b1 b0 : Byte) : Token := b3 ++ b2 ++ b1 ++ b0

/-- The bytes of a two-byte field. -/
def bytes16 (w : Word16) : List Byte := [w.extractLsb' 8 8, w.extractLsb' 0 8]

/-- The bytes of a token field. -/
def bytes32 (t : Token) : List Byte :=
  [t.extractLsb' 24 8, t.extractLsb' 16 8, t.extractLsb' 8 8, t.extractLsb' 0 8]

/-- A slot field that names a slot, 0 to 15 (R4, step 1). -/
def slotOf (b : Byte) : Option SlotNo :=
  if h : b.toNat < 16 then some ⟨b.toNat, h⟩ else none

/-- A channel field that names a channel, 0 to 3. -/
def channelNoOf (b : Byte) : Option ChannelNo :=
  if h : b.toNat < 4 then some ⟨b.toNat, h⟩ else none

/-- A channel field: a number 0 to 3, or ALL, 0xFF (R4, step 1; R175). -/
def channelOf (b : Byte) : Option (Option ChannelNo) :=
  if b = 0xFF then some none else (channelNoOf b).map some

/-- A handle field that names a position of the Lease Table; 64 to 255 match no lease (R32). -/
def handleOf (b : Byte) : Option Handle :=
  if h : b.toNat < 64 then some ⟨b.toNat, h⟩ else none

/-- A tag field, 0 to 15 (R43, R58). -/
def tagOf (b : Byte) : Option Tag :=
  if b.toNat < 16 then some (b.setWidth 4) else none

/-- The mode field of ACQUIRE (R175). -/
def modeOf (b : Byte) : Option Mode :=
  if b = 0x00 then some .shared else if b = 0x01 then some .exclusive else none

/-- The mode field of BOOK (R175). -/
def bookingModeOf (b : Byte) : Option BookingMode :=
  if b = 0x00 then some .once else if b = 0x01 then some .standing else none

/-- A no or yes field (R175). -/
def flagOf (b : Byte) : Option Bool :=
  if b = 0x00 then some false else if b = 0x01 then some true else none

/-! ### The payloads of the requests (R109, R176) -/

/-- The fields of ACQUIRE that have passed the format check (R43). -/
structure AcquireFields where
  tag : Tag
  slot : Byte
  channel : Byte
  mode : Mode
  term : Word16
  waitLimit : Byte
  urgent : Bool
  deriving DecidableEq, Repr

/-- ACQUIRE: 8 bytes; tag, mode and urgent flag have a format check, taken in payload order (R109, R176). -/
def parseAcquire : List Byte → Except Denial AcquireFields
  | [tag, slot, channel, mode, t1, t0, waitLimit, urgent] =>
    match tagOf tag, modeOf mode, flagOf urgent with
    | none, _, _ => .error (malformed (some 0))
    | some _, none, _ => .error (malformed (some 3))
    | some _, some _, none => .error (malformed (some 6))
    | some tag, some mode, some urgent =>
      .ok { tag, slot, channel, mode, term := word16 t1 t0, waitLimit, urgent }
  | _ => .error (malformed none)

/-- RENEW: handle, token, term, 7 bytes (R176). -/
def parseRenew : List Byte → Except Denial (Byte × Token × Word16)
  | [h, b3, b2, b1, b0, t1, t0] => .ok (h, word32 b3 b2 b1 b0, word16 t1 t0)
  | _ => .error (malformed none)

/-- RELEASE: handle, token, 5 bytes (R176). -/
def parseRelease : List Byte → Except Denial (Byte × Token)
  | [h, b3, b2, b1, b0] => .ok (h, word32 b3 b2 b1 b0)
  | _ => .error (malformed none)

/-- CANCEL: a tag, 0 to 15 (R58, R176). -/
def parseCancel : List Byte → Except Denial Tag
  | [tag] =>
    match tagOf tag with
    | some tag => .ok tag
    | none => .error (malformed (some 0))
  | _ => .error (malformed none)

/-- QUERY: slot and channel, 2 bytes (R176). -/
def parseQuery : List Byte → Except Denial (Byte × Byte)
  | [slot, channel] => .ok (slot, channel)
  | _ => .error (malformed none)

/-- The fields of ACCESS that have passed the format check (R125). -/
structure AccessFields where
  handle : Byte
  token : Token
  channel : Byte
  op : Operation
  register : Byte
  deriving DecidableEq, Repr

/-- ACCESS: READ has 8 bytes and WRITE 10, chosen by the operation field; an unknown operation is tested against
the READ length first (R109, R176). -/
def parseAccess : List Byte → Except Denial AccessFields
  | [handle, b3, b2, b1, b0, channel, op, register] =>
    if op = 0x00 then
      .ok { handle, token := word32 b3 b2 b1 b0, channel, op := .read, register }
    else if op = 0x01 then .error (malformed none)
    else .error (malformed (some 3))
  | [handle, b3, b2, b1, b0, channel, op, register, d1, d0] =>
    if op = 0x01 then
      .ok { handle, token := word32 b3 b2 b1 b0, channel, op := .write (word16 d1 d0), register }
    else .error (malformed none)
  | _ => .error (malformed none)

/-- BOOK: slot and mode, 2 bytes; the mode has a format check (R109, R176). -/
def parseBook : List Byte → Except Denial (Byte × BookingMode)
  | [slot, mode] =>
    match bookingModeOf mode with
    | some mode => .ok (slot, mode)
    | none => .error (malformed (some 1))
  | _ => .error (malformed none)

/-- UNBOOK and REARM: a slot, 1 byte (R176). -/
def parseSlot : List Byte → Except Denial Byte
  | [slot] => .ok slot
  | _ => .error (malformed none)

/-- CONFIGURE: tGRACE, tACK, delivery attempts, max term, 5 bytes (R117, R176). -/
def parseConfigure : List Byte → Except Denial ConfigRecord
  | [grace, ack, attempts, m1, m0] =>
    .ok { tGrace := grace, tAck := ack, attempts := attempts, maxTerm := word16 m1 m0 }
  | _ => .error (malformed none)

/-- CLOSE, FETCH FAULT and RESET CONTROLLER: empty payload only (R109). -/
def parseEmpty : List Byte → Except Denial Unit
  | [] => .ok ()
  | _ :: _ => .error (malformed none)

/-! ### Resources (R1 to R3) -/

/-- Two resources overlap when they share a slot and are the same channel or either is the whole slot (R2). -/
def Resource.overlaps (a b : Resource) : Bool :=
  decide (a.slot = b.slot) && (decide (a.channel = none) || decide (b.channel = none) ||
    decide (a.channel = b.channel))

/-- Two holds are compatible when their resources do not overlap or both are SHARED (R3). -/
def Hold.compatible (a b : Hold) : Bool :=
  !a.resource.overlaps b.resource || (decide (a.mode = .shared) && decide (b.mode = .shared))

/-- A lease is a hold (R3). -/
def Lease.hold (l : Lease) : Hold := { resource := l.resource, mode := l.mode }

/-- A wait record is a hold (R3, R48). -/
def Wait.hold (w : Wait) : Hold := { resource := w.resource, mode := w.mode }

/-- A slot's channel count while it is READY (R5). -/
def SlotState.channels? : SlotState → Option (BitVec 4)
  | .ready n _ => some n
  | .empty | .settling _ | .identifying | .faulted => none

/-- Is the slot READY? -/
def SlotState.isReady : SlotState → Bool
  | .ready _ _ => true
  | .empty | .settling _ | .identifying | .faulted => false

/-- A resource contains a channel of its slot (R2): a channel resource its own channel, a slot resource every channel;
but no resource contains a channel at or above the slot's channel count at the time of the check. -/
def Resource.contains (r : Resource) (slot : SlotState) (c : ChannelNo) : Bool :=
  match slot.channels? with
  | some n => decide (c.val < n.toNat) && (decide (r.channel = none) || decide (r.channel = some c))
  | none => false

/-- A resource is valid when its slot is READY and its channel, if any, is below the channel count (R4). -/
def Resource.valid (r : Resource) (slots : Vector SlotRecord 16) : Bool :=
  match (slots[r.slot]).state.channels?, r.channel with
  | some _, none => true
  | some n, some c => decide (c.val < n.toNat)
  | none, _ => false

/-- The resource check (R4), its three steps in order. The field indexes are those of the slot and the channel
field of the request. -/
def resourceCheck (slots : Vector SlotRecord 16) (slotIndex channelIndex : FieldIndex) (slot channel : Byte) :
    Except Denial Resource :=
  match slotOf slot with
  | none => .error (.fault .badResource (some slotIndex))
  | some sl =>
    match channelOf channel with
    | none => .error (.fault .badResource (some channelIndex))
    | some ch =>
      match (slots[sl]).state.channels? with
      | none => .error (.status .absent)
      | some n =>
        match ch with
        | none => .ok { slot := sl, channel := none }
        | some c =>
          if c.val < n.toNat then .ok { slot := sl, channel := some c }
          else .error (.fault .badResource (some channelIndex))

end Sys2Proof.Machine
end

