-- ==== Sys2Proof/Machine/Flags.lean ====
section
/-! DEFINITION. The flags of the part: the overflow marker with the LOST flags (R158), and the fault record with
its SECOND flag (R101). -/

namespace Sys2Proof.Machine

/-- A notice of the session is dropped at joining (R158, first row). -/
def Marker.dropped : Marker → Marker
  | .clear | .set | .reported => .set

/-- The LOST flag that the first transmission of a notice fixes (R158, second row). -/
def Marker.lostFlag : Marker → Bool
  | .set => true
  | .clear | .reported => false

/-- The marker after the first transmission of a notice (R158, second row). -/
def Marker.transmitted : Marker → Marker
  | .set => .reported
  | .clear => .clear
  | .reported => .reported

/-- The ACK of a notice with this LOST flag is taken (R158, third row). -/
def Marker.acked (lost : Option Bool) (m : Marker) : Marker :=
  match lost, m with
  | some true, .reported => .clear
  | _, m => m

/-- A notice with this LOST flag leaves the queue without ACK, by UNBOOK or by replacement (R158, fourth row). -/
def Marker.removed (lost : Option Bool) (m : Marker) : Marker :=
  match lost, m with
  | some true, .reported => .set
  | _, m => m

/-- A fault of the session: the first one is written with SECOND clear, a later one only sets SECOND (R101). -/
def FaultRecord.mark (old : Option FaultRecord) (code : FaultCode) (kind seq : Byte) (index : Option FieldIndex) :
    FaultRecord :=
  match old with
  | none => { code, kind, seq, index, second := false }
  | some r => { r with second := true }

end Sys2Proof.Machine
end

