-- ==== Sys2Proof/Machine/Formats.lean ====
section
/-! DEFINITION. The byte layouts of chapter 10: codes (R175), the CRC, the payloads of responses, completions and
notices (R176), the descriptor word (R177), and the acceptance tests of a received frame (R168). -/

namespace Sys2Proof.Machine

/-! ### Codes (R175) -/

namespace Kind
/-- OPEN -/
def openSession : Byte := 0x01
/-- CLOSE -/
def closeSession : Byte := 0x02
/-- FETCH FAULT -/
def fetchFault : Byte := 0x03
/-- ACQUIRE -/
def acquire : Byte := 0x10
/-- RENEW -/
def renew : Byte := 0x11
/-- RELEASE -/
def release : Byte := 0x12
/-- CANCEL -/
def cancel : Byte := 0x13
/-- QUERY -/
def query : Byte := 0x14
/-- ACCESS -/
def access : Byte := 0x20
/-- BOOK -/
def book : Byte := 0x30
/-- UNBOOK -/
def unbook : Byte := 0x31
/-- REARM -/
def rearm : Byte := 0x32
/-- PROBE -/
def probe : Byte := 0x40
/-- CONFIGURE -/
def configure : Byte := 0x41
/-- RESET CONTROLLER -/
def resetController : Byte := 0x42
end Kind

namespace FrameKind
/-- REQUEST -/
def request : Byte := 0x01
/-- RESPONSE -/
def response : Byte := 0x02
/-- COMPLETION -/
def completion : Byte := 0x03
/-- NOTICE -/
def notice : Byte := 0x04
/-- ACK -/
def ack : Byte := 0x05
end FrameKind

/-- The start delimiter (R175). -/
def startDelimiterByte : Byte := 0xC3

/-- Status codes (R175). -/
def Status.code : Status → Byte
  | .done => 0x00 | .granted => 0x01 | .deferred => 0x02 | .conflict => 0x03 | .full => 0x04
  | .stale => 0x05 | .late => 0x06 | .recalled => 0x07 | .offline => 0x08 | .absent => 0x09
  | .busy => 0x0A | .noSession => 0x0B | .fault => 0x0C

/-- Fault codes (R175). -/
def FaultCode.code : FaultCode → Byte
  | .malformed => 0x01 | .badKind => 0x02 | .badResource => 0x03 | .badTerm => 0x04 | .badAccess => 0x05
  | .tagInUse => 0x06 | .tooManyDeferred => 0x07 | .notPermitted => 0x08 | .configLocked => 0x09
  | .sequence => 0x0A | .badConfig => 0x0B

/-- no or clear 0x00, yes or set 0x01 (R175). -/
def flagByte (b : Bool) : Byte := if b then 0x01 else 0x00

/-- Class codes (R175). -/
def SessionClass.code : SessionClass → Byte
  | .normal => 0x00
  | .manager => 0x01

/-- Service state codes (R175). -/
def serviceCode : Service → Byte
  | .online => 0x00
  | .service => 0x01

/-- Notice kind codes (R175). -/
def Notice.code : Notice → Byte
  | .attention _ => 0x01
  | .lease .recall _ _ _ => 0x02
  | .lease .expired _ _ _ => 0x03
  | .lease .revoked _ _ _ => 0x04
  | .lease .vacated _ _ _ => 0x05

/-- Completion outcome codes (R175). -/
def Completion.code : Completion → Byte
  | .granted _ _ _ => 0x01
  | .timedOut => 0x02
  | .vacated => 0x03

/-- How a cycle ended (R133); ACCEPTED with the word on the data path. -/
inductive CycleOutcome
  | accepted (word : Word16)
  | refused
  | silent
  deriving DecidableEq, Repr

/-- Access outcome codes (R175). -/
def CycleOutcome.code : CycleOutcome → Byte
  | .accepted _ => 0x00
  | .refused => 0x01
  | .silent => 0x02

/-- A host address as a byte. -/
def addrByte (h : Addr) : Byte := h.setWidth 8

/-- A slot field. -/
def slotByte (s : SlotNo) : Byte := BitVec.ofNat 8 s.val

/-- A handle field. -/
def handleByte (h : Handle) : Byte := BitVec.ofNat 8 h.val

/-- A tag field. -/
def tagByte (t : Tag) : Byte := t.setWidth 8

/-- A channel field; ALL and an absent channel are 0xFF (R175). -/
def channelByte : Option ChannelNo → Byte
  | some c => BitVec.ofNat 8 c.val
  | none => 0xFF

/-- A field index; an absent one is 0xFF (R176). -/
def indexByte : Option FieldIndex → Byte
  | some i => i.setWidth 8
  | none => 0xFF

/-! ### Payloads (R176) -/

/-- Whole seconds from `now` to a deadline, rounded down (R30). -/
def secondsLeft (now deadline : Instant) : Nat := (deadline - now) / Config.second

/-- The payload of GRANTED: handle, token, term. -/
def grantedPayload (l : Lease) : List Byte := handleByte l.handle :: bytes32 l.token ++ bytes16 l.term

/-- The payload of a DONE to FETCH FAULT that found a record. -/
def FaultRecord.payload (r : FaultRecord) : List Byte :=
  [r.code.code, r.kind, r.seq, indexByte r.index, flagByte r.second]

/-- The values of the configuration record, as CONFIGURE carries them. -/
def ConfigRecord.payload (c : ConfigRecord) : List Byte :=
  [c.tGrace, c.tAck, c.attempts] ++ bytes16 c.maxTerm

/-- The grace seconds byte of a holder entry: 0xFF for a HELD lease. -/
def graceByte (now : Instant) : LeaseState → Byte
  | .held => 0xFF
  | .recalled deadline _ => BitVec.ofNat 8 (secondsLeft now deadline)

/-- A QUERY holder entry, 4 bytes: holder, mode in bit 4, state in bit 5; seconds to expiry; seconds to grace. -/
def holderEntry (now : Instant) (l : Lease) : List Byte :=
  let modeBit : BitVec 1 := if l.mode = .exclusive then 1 else 0
  let stateBit : BitVec 1 := if l.state = .held then 0 else 1
  ((0 : BitVec 2) ++ stateBit ++ modeBit ++ l.holder) ::
    bytes16 (BitVec.ofNat 16 (secondsLeft now l.expiry)) ++ [graceByte now l.state]

/-- A PROBE slot byte: state code in the high four bits, channel count of a READY slot in the low four. -/
def SlotState.probeByte : SlotState → Byte
  | .empty => 0x00
  | .settling _ => 0x10
  | .identifying => 0x20
  | .ready n _ => (3 : BitVec 4) ++ n
  | .faulted => 0x40

/-- The payload of a DONE to ACCESS: the outcome, and the word for a READ that ended ACCEPTED (R134). -/
def accessPayload (op : Operation) (outcome : CycleOutcome) : List Byte :=
  match op, outcome with
  | .read, .accepted w => outcome.code :: bytes16 w
  | _, _ => [outcome.code]

/-- A completion payload. -/
def completionPayload (tag : Tag) : Completion → List Byte
  | .granted h t term => tagByte tag :: handleByte h :: bytes32 t ++ bytes16 term
  | .timedOut | .vacated => [tagByte tag]

/-- A notice payload, 8 bytes; for ATTENTION the channel and the handle are 0xFF and the token is 0. -/
def noticePayload (n : Notice) (lost : Bool) : List Byte :=
  match n with
  | .attention slot => [slotByte slot, 0xFF, 0xFF] ++ bytes32 0 ++ [flagByte lost]
  | .lease _ r h t => [slotByte r.slot, channelByte r.channel, handleByte h] ++ bytes32 t ++ [flagByte lost]

/-! ### The descriptor word (R177) -/

/-- Bits 11 to 8: the channel count field. -/
def descriptorChannels (w : Word16) : BitVec 4 := w.extractLsb' 8 4

/-- Bits 7 to 0: the class code. -/
def descriptorClass (w : Word16) : Byte := w.extractLsb' 0 8

/-- What the descriptor check makes of the slot (R11): READY for a count of 1 to 4, FAULTED otherwise. -/
def descriptorState (w : Word16) : SlotState :=
  if 1 ≤ (descriptorChannels w).toNat ∧ (descriptorChannels w).toNat ≤ 4 then
    .ready (descriptorChannels w) (descriptorClass w)
  else .faulted

/-! ### Frames on the pair (R175) -/

/-- One bit through the CRC register, generator x^16 + x^12 + x^5 + 1 (R175). -/
def crcBit (c : Word16) (b : Bool) : Word16 :=
  if c.msb ^^ b then (c <<< 1) ^^^ 0x1021 else c <<< 1

/-- One byte through the CRC register, most significant bit first (R175). -/
def crcByte (c : Word16) (b : Byte) : Word16 :=
  [0, 1, 2, 3, 4, 5, 6, 7].foldl (fun c i => crcBit c (b.getMsbD i)) c

/-- The CRC of some bytes: starts from 0xFFFF, no final inversion (R175). -/
def crc16 (bytes : List Byte) : Word16 := bytes.foldl crcByte 0xFFFF

/-- The six header bytes (R175). -/
def headerBytes (dest src frameKind seq kind : Byte) (payload : List Byte) : List Byte :=
  [dest, src, frameKind, seq, kind, BitVec.ofNat 8 payload.length]

/-- The CRC of a frame: over header and payload, without the delimiter (R175). -/
def frameCrc (dest src frameKind seq kind : Byte) (payload : List Byte) : Word16 :=
  crc16 (headerBytes dest src frameKind seq kind payload ++ payload)

/-- The bytes of a frame the part sends (R169, R175). -/
def wireFrame (dest src frameKind seq kind : Byte) (payload : List Byte) : List Byte :=
  startDelimiterByte :: headerBytes dest src frameKind seq kind payload ++ payload ++
    bytes16 (frameCrc dest src frameKind seq kind payload)

/-- The acceptance tests of a frame that has ended (R168): CRC, destination, source, frame kind. -/
def accepted (node : Addr) (frameKind kind : Byte) (f : Frame) : Bool :=
  decide (f.crc = frameCrc f.dest f.src frameKind f.seq kind f.payload)
  && (decide (node ≠ 0) && decide (f.dest = addrByte node))
  && (decide (f.src ≠ 0) && decide (f.src.toNat ≤ 15) && decide (f.src ≠ addrByte node))
  && (decide (frameKind = FrameKind.request) || decide (frameKind = FrameKind.ack))

/-- The host a frame comes from; its source is 1 to 15 once it is accepted (R168). -/
def frameHost (f : Frame) : Addr := f.src.setWidth 4

end Sys2Proof.Machine
end

