-- ==== Sys2Proof/Machine/Outbound.lean ====
section
/-! DEFINITION. Operations on one Outbound Queue: numbering (R156), joining, coalescing, replacement and drop
(R146, R157, R158), and the removals by ACK, tACK expiry and UNBOOK (R147, R149, R161, R162).

`flying` is the number of the session's entry in flight, if any: an entry is undelivered while it stands in the
queue and is not in flight (R155). -/

namespace Sys2Proof.Machine

/-- The queue of a session that opens (R91, R156, R158, R161). -/
def OutboundQueue.opened : OutboundQueue :=
  { entries := [], counter := 0, marker := .clear, attempts := 0, contended := none }

/-- Is the entry a notice? -/
def Entry.isNotice (e : Entry) : Bool :=
  match e.body with
  | .notice _ _ => true
  | .completion _ _ => false

/-- The LOST flag of an entry, if it has one and it is fixed. -/
def Entry.lost (e : Entry) : Option Bool :=
  match e.body with
  | .notice _ lost => lost
  | .completion _ _ => none

/-- Is the entry an ATTENTION notice for this slot? -/
def Entry.isAttention (slot : SlotNo) (e : Entry) : Bool :=
  match e.body with
  | .notice (.attention s) _ => decide (s = slot)
  | _ => false

/-- Is the entry a RECALL notice for the lease with this handle and token? -/
def Entry.isRecall (handle : Handle) (token : Token) (e : Entry) : Bool :=
  match e.body with
  | .notice (.lease .recall _ h t) _ => decide (h = handle) && decide (t = token)
  | _ => false

/-- An entry is undelivered when it is not the one in flight (R155). -/
def Entry.undelivered (flying : Option Byte) (e : Entry) : Bool := decide (flying ≠ some e.seq)

/-- The notices in a queue, of every kind (R146). -/
def OutboundQueue.notices (q : OutboundQueue) : Nat := q.entries.countP Entry.isNotice

/-- The first number from `n` on that no entry carries (R156). At most as many numbers are skipped as there are
entries, which the fuel allows. -/
def freeNumber (entries : List Entry) : (fuel : Nat) → Byte → Byte
  | 0, n => n
  | fuel + 1, n => if entries.any (fun e => decide (e.seq = n)) then freeNumber entries fuel (n + 1) else n

/-- The number that the next entry takes (R156). -/
def OutboundQueue.nextNumber (q : OutboundQueue) : Byte := freeNumber q.entries q.entries.length q.counter

/-- The number of the head of a queue. -/
def headNumber (entries : List Entry) : Option Byte := entries.head?.map Entry.seq

/-- The queue with other entries: whenever the head changes, the attempt count returns to 0 (R161), and the new head has
lost no transmission. Numbers are not repeated within a queue (R156), so the head changes when its number does. -/
def OutboundQueue.withEntries (q : OutboundQueue) (entries : List Entry) : OutboundQueue :=
  { q with entries := entries,
           attempts := if headNumber entries = headNumber q.entries then q.attempts else 0,
           contended := if headNumber entries = headNumber q.entries then q.contended else none }

/-- An entry joins at the end with the next number (R156, R157). -/
def OutboundQueue.push (q : OutboundQueue) (body : EntryBody) : OutboundQueue :=
  { q.withEntries (q.entries ++ [{ seq := q.nextNumber, body := body }]) with counter := q.nextNumber + 1 }

/-- The queue with a changed overflow marker. -/
def OutboundQueue.mark (q : OutboundQueue) (f : Marker → Marker) : OutboundQueue := { q with marker := f q.marker }

/-- A notice joins, or is dropped when the queue holds 8 notices (R157, R158). -/
def OutboundQueue.joinNotice (q : OutboundQueue) (n : Notice) : OutboundQueue :=
  if q.notices < Config.maxNotices then q.push (.notice n none) else q.mark .dropped

/-- The list with its first element that passes the test replaced. -/
def replaceFirst {α : Type} (p : α → Bool) (new : α) : List α → List α
  | [] => []
  | x :: xs => if p x then new :: xs else x :: replaceFirst p new xs

/-- A retirement notice takes the place of an undelivered RECALL entry, with a new number (R157). The marker
changes when the RECALL carried LOST (R158). -/
def OutboundQueue.replaceRecall (q : OutboundQueue) (p : Entry → Bool) (n : Notice) : OutboundQueue :=
  { (q.withEntries (replaceFirst p { seq := q.nextNumber, body := .notice n none } q.entries)).mark
      (Marker.removed ((q.entries.find? p).bind Entry.lost)) with counter := q.nextNumber + 1 }

/-- A notice is handed to the queue (R146, R157). -/
def OutboundQueue.hand (q : OutboundQueue) (flying : Option Byte) (n : Notice) : OutboundQueue :=
  match n with
  | .attention slot =>
    if q.entries.any (fun e => e.undelivered flying && e.isAttention slot) then q else q.joinNotice n
  | .lease .recall _ _ _ => q.joinNotice n
  | .lease .expired _ h t | .lease .revoked _ h t | .lease .vacated _ h t =>
    if q.entries.any (fun e => e.undelivered flying && e.isRecall h t) then
      q.replaceRecall (fun e => e.undelivered flying && e.isRecall h t) n
    else q.joinNotice n

/-- A completion is handed to the queue: it joins at the end, never dropped (R62, R157). -/
def OutboundQueue.handCompletion (q : OutboundQueue) (tag : Tag) (outcome : Completion) : OutboundQueue :=
  q.push (.completion tag outcome)

/-- The undelivered ATTENTION entry of the slot is removed (R149 step 2). The removal leaves the overflow marker unchanged:
no drop is recorded (R149, last paragraph; `OutboundQueue.removeAttention_marker`). -/
def OutboundQueue.removeAttention (q : OutboundQueue) (flying : Option Byte) (slot : SlotNo) : OutboundQueue :=
  q.withEntries (q.entries.filter (fun e => !(e.undelivered flying && e.isAttention slot)))

/-- The LOST flag of the undelivered ATTENTION entry of the slot, if there is one and its flag is fixed. -/
def OutboundQueue.attentionLost (q : OutboundQueue) (flying : Option Byte) (slot : SlotNo) : Option Bool :=
  (q.entries.find? (fun e => e.undelivered flying && e.isAttention slot)).bind Entry.lost

/-- UNBOOK: the entry is removed (R149), and by the Delivery Unit's rule on a LOST-flagged notice that leaves by UNBOOK, a
REPORTED marker returns to SET (R158, fourth row; assumption 9, DEDUCED, unsafe). -/
def OutboundQueue.unbook (q : OutboundQueue) (flying : Option Byte) (slot : SlotNo) : OutboundQueue :=
  (q.removeAttention flying slot).mark (Marker.removed (q.attentionLost flying slot))

/-- The ACK of the entry with this number removes it and, for a notice with LOST set, acts on the marker
(R158, R162). -/
def OutboundQueue.acked (q : OutboundQueue) (seq : Byte) : OutboundQueue :=
  (q.withEntries (q.entries.filter (fun e => decide (e.seq ≠ seq)))).mark
    (Marker.acked ((q.entries.find? (fun e => decide (e.seq = seq))).bind Entry.lost))

/-- The tag that the ACK of the entry with this number frees: a completion's (R162). -/
def OutboundQueue.ackedTag (q : OutboundQueue) (seq : Byte) : Option Tag :=
  match q.entries.find? (fun e => decide (e.seq = seq)) with
  | some { body := .completion tag _, .. } => some tag
  | _ => none

/-- The slot whose ATTENTION notice the entry with this number is. -/
def OutboundQueue.attentionOf (q : OutboundQueue) (seq : Byte) : Option SlotNo :=
  match q.entries.find? (fun e => decide (e.seq = seq)) with
  | some { body := .notice (.attention slot) _, .. } => some slot
  | _ => none

/-- The entry in flight with this number is undelivered again. If it is an ATTENTION entry, a later ATTENTION entry
for its slot is removed, so that at most one undelivered ATTENTION entry stands for each slot (R147, R155; assumption
24 for a loss to contention). -/
def OutboundQueue.returned (q : OutboundQueue) (seq : Byte) : OutboundQueue :=
  match q.attentionOf seq with
  | some slot => q.withEntries (q.entries.filter (fun e => !(e.isAttention slot && decide (e.seq ≠ seq))))
  | none => q

/-- The transmission of the entry with this number was lost to contention: it is undelivered again and waits to be sent
again (R160, R170). -/
def OutboundQueue.contend (q : OutboundQueue) (seq : Byte) : OutboundQueue :=
  { q.returned seq with contended := some seq }

/-- tACK of the entry with this number has run out: it is undelivered again, and the attempt count advances (R147,
R161). -/
def OutboundQueue.expired (q : OutboundQueue) (seq : Byte) : OutboundQueue :=
  { q.returned seq with attempts := (q.returned seq).attempts + 1 }

/-- The first transmission of a notice fixes its LOST flag and may change the marker (R158). Resends and
completions change nothing. -/
def OutboundQueue.transmitHead (q : OutboundQueue) : OutboundQueue :=
  match q.entries with
  | { seq, body := .notice n none } :: rest =>
    { q with entries := { seq, body := .notice n (some q.marker.lostFlag) } :: rest,
             marker := q.marker.transmitted }
  | _ => q

/-- The transmission of the head starts (R158, R159). -/
def OutboundQueue.started (q : OutboundQueue) : OutboundQueue := { q.transmitHead with contended := none }

end Sys2Proof.Machine
end

