-- ==== Sys2Proof/Machine/Ops.lean ====
section
/-! DEFINITION. The operations that the blocks share: reaching an instant, the session records, forming and
replaying responses, the fault record, and taking a frame through stages 1 to 4 of R107. -/

namespace Sys2Proof.Machine

/-! ### Time -/

/-- The clock runs on to an instant, if it has not reached it (assumption 3). -/
def State.reach (t : Instant) (s : State) : State := { s with now := max s.now t }

/-! ### The Session Table (R83, R84) -/

/-- The open session of a host. -/
def State.session? (s : State) (h : Addr) : Option Session := s.sessions.find? (fun x => decide (x.host = h))

/-- Change the session record of a host. -/
def State.mapSession (h : Addr) (f : Session → Session) (s : State) : State :=
  { s with sessions := s.sessions.map (fun x => if x.host = h then f x else x) }

/-- The class a session of this host opens with (R85). -/
def Panel.classOf (p : Panel) (h : Addr) : SessionClass :=
  if p.managerAddress ≠ 0 ∧ h = p.managerAddress then .manager else .normal

/-- Is the session of this host the MANAGER's (R85, R104)? -/
def State.isManager (s : State) (h : Addr) : Bool :=
  match s.session? h with
  | some x => decide (x.cls = .manager)
  | none => false

/-- Every accepted frame of a STALLED session's host returns it to DELIVERING with attempt count 0 (R86, R164). -/
def Session.resume (x : Session) : Session :=
  match x.delivery with
  | .stalled => { x with delivery := .delivering, out := { x.out with attempts := 0 } }
  | .delivering => x

/-- A request is accepted as new: the replay record takes its number and kind, the stored response becomes
absent (R95), and it is in flight (R97). -/
def Session.accept (x : Session) (seq kind : Byte) : Session :=
  { x with inFlight := true, lastSeq := seq, lastKind := kind, stored := none }

/-- A fault of the session is recorded or marked (R101). -/
def Session.markFault (x : Session) (code : FaultCode) (kind seq : Byte) (index : Option FieldIndex) : Session :=
  { x with fault := some (FaultRecord.mark x.fault code kind seq index) }

/-- A response is stored for replay; a DEFERRED ends the in-flight state at its formation (R95, R97). -/
def Session.answered (x : Session) (st : Status) (payload : List Byte) : Session :=
  { x with stored := some { status := st, payload := payload },
           inFlight := x.inFlight && decide (st ≠ .deferred) }

/-! ### Responses (R87, R159) -/

/-- A response joins those formed and not yet transmitted. One of the second group takes the place of an
earlier one of that group for the same host, which is discarded unsent (R159). -/
def State.pushResponse (r : Response) (s : State) : State :=
  { s with link := { s.link with responses :=
      if r.taken then s.link.responses ++ [r]
      else s.link.responses.filter (fun q => decide (q.taken = true) || decide (q.host ≠ r.host)) ++ [r] } }

/-- The response to a request taken as new is formed: stored in the replay record and handed to the transmitter,
with the number of the request it answers (R87, R95, R110). -/
def State.answerWith (h : Addr) (st : Status) (payload : List Byte) (clears : Bool) (s : State) : State :=
  match s.session? h with
  | none => s
  | some x =>
    (s.mapSession h (fun x => x.answered st payload)).pushResponse
      { host := h, seq := x.lastSeq, status := st, payload, taken := true, owner := .session, clears }

/-- The ordinary answer: no link clear hangs on it. -/
def State.answer (h : Addr) (st : Status) (payload : List Byte) (s : State) : State :=
  s.answerWith h st payload false

/-- A request taken as new fails with a fault code: the fault record is written or marked with its kind and
number, and it is answered FAULT with an empty payload (R101). -/
def State.answerFault (h : Addr) (code : FaultCode) (index : Option FieldIndex) (s : State) : State :=
  (s.mapSession h (fun x => x.markFault code x.lastKind x.lastSeq index)).answer h .fault []

/-- A request is turned away with a fault or with a bare status. -/
def State.deny (h : Addr) (d : Denial) (s : State) : State :=
  match d with
  | .fault code index => s.answerFault h code index
  | .status st => s.answer h st []

/-- A response of the second group of R159 is formed; it is stored nowhere (R87). -/
def State.reply (h : Addr) (seq : Byte) (st : Status) (payload : List Byte) (owner : Owner) (s : State) : State :=
  s.pushResponse { host := h, seq, status := st, payload, taken := false, owner, clears := false }

/-- Does the end of this response's transmission end the in-flight state of its session's request (R97)? Only
that of a response to a request taken as new, not answered DEFERRED, whose session is still open. -/
def Response.endsFlight (r : Response) : Bool :=
  r.taken && decide (r.owner = .session) && decide (r.status ≠ .deferred)

/-! ### Stages 1 to 4 of a REQUEST frame (R107) -/

/-- The Link Interface can take a frame: the link-reset condition is RELEASED (R171) and the part is not
transmitting (R167). -/
def State.receives (s : State) : Bool := decide (s.link.resetLine = .released) && decide (s.link.tx = none)

/-- A frame ends: the receive state returns to IDLE (R167); a frame that passes every test of R168 is accepted,
a STALLED session of its host resumes (R164), and the frame is taken (R86). A frame whose length byte would be
above 96 is truncated instead. A frame that the link cannot take is bytes on the pair that nobody reads. -/
def State.takeFrame (frameKind kind : Byte) (f : Frame) (take : Addr → State → State) (s : State) : State :=
  if s.receives then
    if f.payload.length ≤ Config.maxPayload ∧ accepted s.panel.nodeAddress frameKind kind f = true then
      take (frameHost f) (({ s with link := { s.link with receive := .idle } }).mapSession (frameHost f) Session.resume)
    else { s with link := { s.link with receive := .idle } }
  else s

/-- FAULT SEQUENCE (R99): the fault is recorded with the frame's number and kind; with no request in flight the
replay record is replaced and stores the FAULT. -/
def State.sequenceFault (x : Session) (kind seq : Byte) (s : State) : State :=
  (s.mapSession x.host (fun y =>
    let y := y.markFault .sequence kind seq none
    if x.inFlight then y
    else { y with lastSeq := seq, lastKind := kind, stored := some { status := .fault, payload := [] } })).reply
      x.host seq .fault [] .session

/-- The classification of a REQUEST other than OPEN from a host with a session (R96): new request, BUSY, replay,
ignored, or FAULT SEQUENCE. -/
def State.sequenced (x : Session) (kind seq : Byte) (run : State → State) (s : State) : State :=
  if seq = x.lastSeq + 1 then
    if x.inFlight then s.reply x.host seq .busy [] .session
    else run (s.mapSession x.host (fun y => y.accept seq kind))
  else if seq = x.lastSeq then
    if x.inFlight then s
    else
      match x.stored with
      | some r => s.reply x.host seq r.status r.payload .session
      | none => s
  else s.sequenceFault x kind seq

/-- A REQUEST frame of a kind other than OPEN: `other` answers it when its host has no session (R86), `run` takes
it as a new request of the host's session. -/
def State.takeRequest (kind : Byte) (f : Frame) (other : Addr → State → State) (run : Addr → State → State)
    (s : State) : State :=
  s.takeFrame FrameKind.request kind f (fun h s =>
    match s.session? h with
    | none => other h s
    | some x => s.sequenced x kind f.seq (run h))

/-- NO_SESSION (R86). -/
def State.noSession (seq : Byte) (h : Addr) (s : State) : State := s.reply h seq .noSession [] .noSession

/-- A new request through stage 5 (R109): a payload of the wrong form is answered FAULT MALFORMED. -/
def State.parsed {α : Type} (h : Addr) (fields : Except Denial α) (run : α → State → State) (s : State) : State :=
  match fields with
  | .error d => s.deny h d
  | .ok a => run a s

/-! ### The Outbound Queues (R155) -/

/-- The number of the session's entry in flight, if any (R155). -/
def State.flying (s : State) (h : Addr) : Option Byte :=
  match s.delivery.attempt with
  | some a => if a.host = h then some a.seq else none
  | none => none

/-- Change the Outbound Queue of a session. -/
def State.mapQueue (h : Addr) (f : OutboundQueue → OutboundQueue) (s : State) : State :=
  s.mapSession h (fun x => { x with out := f x.out })

/-- A notice is handed to a session's Outbound Queue (R157). -/
def State.handNotice (h : Addr) (n : Notice) (s : State) : State :=
  s.mapQueue h (fun q => q.hand (s.flying h) n)

/-- A completion is handed to a session's Outbound Queue (R62, R157). -/
def State.handCompletion (h : Addr) (tag : Tag) (outcome : Completion) (s : State) : State :=
  s.mapQueue h (fun q => q.handCompletion tag outcome)

end Sys2Proof.Machine
end

