-- ==== Sys2Proof/Machine/Leasing.lean ====
section
/-! DEFINITION. The Lease Manager's operations: matching (R32), tokens and handles (R19, R26), grantability (R50),
grants (R23, R55), retirement (R35), the ends of waits (R57, R60, R61), recall (R70) and the grant walk (R53). -/

namespace Sys2Proof.Machine

/-! ### Handles, tokens and matching -/

/-- The lowest handle that no live record holds (R19); none when the Lease Table is full. -/
def freeHandle (leases : List Lease) : Option Handle :=
  (List.finRange 64).find? (fun h => !leases.any (fun l => decide (l.handle = h)))

/-- The token counter advances by 1; from 4,294,967,295 it goes to 1 (R26). -/
def advanceToken (t : Token) : Token := if t = 0xFFFFFFFF then 1 else t + 1

/-- The first value from the counter on that no live lease carries (R26). At most one value is skipped for each
live lease, which the fuel allows. -/
def freeToken (leases : List Lease) : (fuel : Nat) → Token → Token
  | 0, t => t
  | fuel + 1, t =>
    if leases.any (fun l => decide (l.token = t)) then freeToken leases fuel (advanceToken t) else t

/-- The token that the next grant takes (R26). -/
def LeaseManager.nextToken (m : LeaseManager) : Token := freeToken m.leases m.leases.length m.tokenCounter

/-- A request's handle and token match a live lease of its session (R32). -/
def matchLease (leases : List Lease) (h : Addr) (handle : Byte) (token : Token) : Option Lease :=
  leases.find? (fun l =>
    decide (handleOf handle = some l.handle) && decide (l.token = token) && decide (l.holder = h))

/-! ### Grants -/

/-- The record a grant creates (R23). -/
def State.newLease (s : State) (handle : Handle) (holder : Addr) (hold : Hold) (term : Word16) : Lease :=
  { handle, holder, resource := hold.resource, mode := hold.mode, token := s.lm.nextToken, state := .held, term,
    expiry := s.now + term.toNat * Config.second }

/-- A grant: the record joins the end of grant order and the token counter advances past its token (R20, R23,
R26). -/
def State.addLease (l : Lease) (s : State) : State :=
  { s with lm := { s.lm with leases := s.lm.leases ++ [l], tokenCounter := advanceToken l.token } }

/-- A candidate is grantable when it is compatible with every live lease, with the guard and with the earlier
waits (R50, R51). -/
def State.grantable (s : State) (earlier : List Wait) (c : Hold) : Bool :=
  s.lm.leases.all (fun l => c.compatible l.hold)
  && (match s.bp.guardHold with
      | some g => c.compatible g
      | none => true)
  && earlier.all (fun w => c.compatible w.hold)

/-- A walk grants a wait record: lease, and GRANTED completion with its tag (R55). The walk itself takes the
record from the pool. -/
def State.grantWait (handle : Handle) (w : Wait) (s : State) : State :=
  (s.addLease (s.newLease handle w.session w.hold w.term)).handCompletion w.session w.tag
    (.granted handle s.lm.nextToken w.term)

/-- The handle with which a walk grants the record it visits, if it does: the record is grantable, the switch is
ONLINE, a Lease Table record is free and the slot is READY (R52). -/
def State.walkHandle (s : State) (earlier : List Wait) (w : Wait) : Option Handle :=
  if s.panel.service = .online ∧ (s.slots[w.resource.slot]).state.isReady = true ∧
      s.grantable earlier w.hold = true then
    freeHandle s.lm.leases
  else none

/-- One pass over the rest of the pool: `kept` are the records passed over, which stand before the rest (R53). -/
def State.walkFrom (kept : List Wait) : List Wait → State → State
  | [], s => { s with lm := { s.lm with waits := kept } }
  | w :: rest, s =>
    match s.walkHandle kept w with
    | some handle => State.walkFrom kept rest (s.grantWait handle w)
    | none => State.walkFrom (kept ++ [w]) rest s

/-- The grant walk: a single pass over the Wait Pool in pool order (R53). -/
def State.walk (s : State) : State := State.walkFrom [] s.lm.waits s

/-! ### Retirement -/

/-- Why a lease is retired (R36). -/
inductive Reason
  | released | expired | revoked | vacated | closed | cleared
  deriving DecidableEq, Repr

/-- The notice a retirement sends to the holder (R36). -/
def Reason.notice : Reason → Option LeaseNotice
  | .expired => some .expired
  | .revoked => some .revoked
  | .vacated => some .vacated
  | .released | .closed | .cleared => none

/-- The record with this handle leaves the table and grant order (R35 step 1). -/
def State.dropLease (handle : Handle) (s : State) : State :=
  { s with lm := { s.lm with leases := s.lm.leases.filter (fun l => decide (l.handle ≠ handle)) } }

/-- A lease is retired: the record is removed, and the holder is told where the reason says so (R35 steps 1 and 2,
R36, R37). The walk of step 3 is the event's. -/
def State.retire (reason : Reason) (l : Lease) (s : State) : State :=
  match reason.notice with
  | some kind => (s.dropLease l.handle).handNotice l.holder (.lease kind l.resource l.handle l.token)
  | none => s.dropLease l.handle

/-- Several leases are retired by one event, in the order given, which is grant order (R20). -/
def State.retireAll (reason : Reason) (ls : List Lease) (s : State) : State :=
  ls.foldl (fun s l => s.retire reason l) s

/-! ### Waits -/

/-- A new record joins the pool: an urgent one after the last urgent record, a normal one at the end (R49). -/
def insertWait (w : Wait) (waits : List Wait) : List Wait :=
  if w.urgent then waits.takeWhile Wait.urgent ++ w :: waits.dropWhile Wait.urgent else waits ++ [w]

/-- The record of this session and tag leaves the pool; the records behind it close up. The pool holds no two records
with the same session and tag (R49). -/
def State.dropWait (h : Addr) (tag : Tag) (s : State) : State :=
  { s with lm := { s.lm with
      waits := s.lm.waits.filter (fun w => !(decide (w.session = h) && decide (w.tag = tag))) } }

/-- A wait ends with a completion that is no grant (R57, R60). -/
def State.completeWait (outcome : Completion) (w : Wait) (s : State) : State :=
  (s.dropWait w.session w.tag).handCompletion w.session w.tag outcome

/-- Several waits end in one event, in the order given, which is pool order (R60). -/
def State.completeWaits (outcome : Completion) (ws : List Wait) (s : State) : State :=
  ws.foldl (fun s w => s.completeWait outcome w) s

/-! ### Recall -/

/-- A recalled lease (R70 steps 1 and 2). -/
def Lease.recall (l : Lease) (deadline : Instant) (group : Arrival) : Lease :=
  { l with state := .recalled deadline group }

/-- The leases that the recall for an urgent record marks: HELD and in conflict with it (R70). -/
def recallTargets (leases : List Lease) (c : Hold) : List Lease :=
  leases.filter (fun l => decide (l.state = .held) && !c.compatible l.hold)

/-- The recall of an urgent wait record (R70): every conflicting HELD lease becomes RECALLED with one grace
deadline, and its holder is handed a RECALL notice, in grant order. -/
def State.recall (w : Wait) (s : State) : State :=
  (recallTargets s.lm.leases w.hold).foldl
    (fun s l => s.handNotice l.holder (.lease .recall l.resource l.handle l.token))
    { s with lm := { s.lm with leases := s.lm.leases.map (fun l =>
        if l.state = .held ∧ w.hold.compatible l.hold = false then
          l.recall (s.now + s.panel.config.tGrace.toNat * Config.second) w.arrival
        else l) } }

/-- The live leases of a recall's group, in grant order (R70, R76). -/
def groupLeases (leases : List Lease) (group : Arrival) : List Lease :=
  leases.filter (fun l =>
    match l.state with
    | .recalled _ g => decide (g = group)
    | .held => false)

/-- The grace deadline of a group: its members share one (R70). -/
def groupDeadline (leases : List Lease) (group : Arrival) : Option Instant :=
  leases.findSome? (fun l =>
    match l.state with
    | .recalled d g => if g = group then some d else none
    | .held => none)

/-! ### Vacate and close -/

/-- The vacate of a slot at the Lease Manager (R39, R60): its leases are retired VACATED in grant order, its waits
completed VACATED in pool order, and one walk runs. -/
def State.vacateLeases (slot : SlotNo) (s : State) : State :=
  ((s.retireAll .vacated (s.lm.leases.filter (fun l => decide (l.resource.slot = slot)))).completeWaits .vacated
    (s.lm.waits.filter (fun w => decide (w.resource.slot = slot)))).walk

/-- The close of a session at the Lease Manager (R40, R61): its leases are retired CLOSED, its waits removed, and
one walk runs. -/
def State.closeLeases (h : Addr) (s : State) : State :=
  (let s := s.retireAll .closed (s.lm.leases.filter (fun l => decide (l.holder = h)))
   { s with lm := { s.lm with waits := s.lm.waits.filter (fun w => decide (w.session ≠ h)) } }).walk

end Sys2Proof.Machine
end

