-- ==== Sys2Proof/Machine/Arbiter.lean ====
section
/-! DEFINITION. The Backplane Sequencer's operations and what the Slot Directory and the Booking Unit do when a
cycle ends: firing (R144), the identification outcome (R10), the arbiter (R128), the start check (R131) and the end
of a cycle (R134). -/

namespace Sys2Proof.Machine

/-! ### Slots and bookings -/

/-- Change a slot's state. -/
def State.setSlot (slot : SlotNo) (f : SlotRecord → SlotRecord) (s : State) : State :=
  { s with slots := s.slots.set slot.val (f s.slots[slot]) slot.isLt }

/-- The effective attention level: raised when the slot is READY and its attention level is raised (R15). -/
def SlotRecord.effective (r : SlotRecord) : Bool := r.state.isReady && r.attention

/-- A booking fires (R144 step 1): a ONCE booking is removed, a STANDING one goes to FIRED. -/
def fireBookings (p : Booking → Bool) (bs : List Booking) : List Booking :=
  bs.filterMap (fun b =>
    if p b && decide (b.state = .armed) then
      match b.mode with
      | .once => none
      | .standing => some { b with state := .fired }
    else some b)

/-- The ARMED bookings among those chosen fire: their records change and their sessions are handed ATTENTION
notices (R144). -/
def State.fire (p : Booking → Bool) (s : State) : State :=
  (s.bookings.filter (fun b => p b && decide (b.state = .armed))).foldl
    (fun s b => s.handNotice b.session (.attention b.slot))
    { s with bookings := fireBookings p s.bookings }

/-- An attention rise of a slot reported to the Booking Unit: every ARMED booking on it fires (R145). -/
def State.reportRise (slot : SlotNo) (s : State) : State := s.fire (fun b => decide (b.slot = slot))

/-- A rise is reported while the slot's effective level is raised: at a change of the line (R14) and at the entry to
READY (R12). -/
def State.reportIfRaised (slot : SlotNo) (s : State) : State :=
  if (s.slots[slot]).effective then s.reportRise slot else s

/-- What an identification outcome makes of a slot in IDENTIFYING (R10, R11). -/
def outcomeState : CycleOutcome → SlotState
  | .accepted word => descriptorState word
  | .refused | .silent => .faulted

/-! ### Identification -/

/-- The outcome of an identification cycle is applied to a slot in IDENTIFYING and discarded otherwise (R10, R11);
entry to READY with the attention level raised reports a rise (R12, R14). -/
def State.identified (slot : SlotNo) (outcome : CycleOutcome) (s : State) : State :=
  match (s.slots[slot]).state with
  | .identifying =>
    (s.setSlot slot (fun r => { r with state := outcomeState outcome })).reportIfRaised slot
  | .empty | .settling _ | .ready _ _ | .faulted => s

/-- A slot joins the pending identification set, which is served in ascending order (R129). -/
def insertSlot (slot : SlotNo) : List SlotNo → List SlotNo
  | [] => [slot]
  | x :: xs =>
    if slot < x then slot :: x :: xs
    else if slot = x then x :: xs
    else x :: insertSlot slot xs

/-- An identification cycle starts: the slot leaves the set; no guard (R129, R130). -/
def State.startIdentification (slot : SlotNo) (rest : List SlotNo) (s : State) : State :=
  { s with bp := { s.bp with
      pendingIds := rest, cycle := some { kind := .identify slot, silence := s.now + Config.tSilence } } }

/-! ### Start check and arbiter -/

/-- The live lease that an access names at its start check: handle, token and session (R131 step 3). A live
lease is HELD or RECALLED by its type (R22). -/
def AccessEntry.lease? (e : AccessEntry) (leases : List Lease) : Option Lease :=
  leases.find? (fun l =>
    decide (l.handle = e.handle) && decide (l.token = e.token) && decide (l.holder = e.session))

/-- The start check (R131): the status on failure, or the lease under which the cycle starts. -/
def State.startCheck (s : State) (e : AccessEntry) : Except Status Lease :=
  if s.panel.service = .service then .error .offline
  else if (s.slots[e.slot]).state.isReady = false then .error .absent
  else
    match e.lease? s.lm.leases with
    | none => .error .stale
    | some l => .ok l

/-- The start check has passed: the guard is set and the cycle starts, in one step (R132). -/
def State.startAccess (e : AccessEntry) (l : Lease) (s : State) : State :=
  { s with bp := { s.bp with
      guardHold := some l.hold,
      cycle := some {
        kind := .access e.session e.slot e.channel e.op e.register false
        silence := s.now + Config.tSilence } } }

/-- The head entries of the Access Queue are start-checked until a cycle starts or none is left; each failure is
answered within the same event (R128, R131). -/
def State.serveQueue : List AccessEntry → State → State
  | [], s => { s with bp := { s.bp with queue := [] } }
  | e :: rest, s =>
    match s.startCheck e with
    | .error st => State.serveQueue rest (s.answer e.session st [])
    | .ok l => { s with bp := { s.bp with queue := rest } }.startAccess e l

/-- The arbiter takes the lowest pending identification, if the backplane is free (R128, R130). -/
def State.chooseIdentification (s : State) : State :=
  match s.bp.cycle, s.bp.pendingIds with
  | none, slot :: rest => s.startIdentification slot rest
  | _, _ => s

/-- The arbiter takes the head of the Access Queue, if the backplane is free and no identification is pending
(R128, R131). -/
def State.chooseAccess (s : State) : State :=
  match s.bp.cycle, s.bp.pendingIds with
  | none, [] => State.serveQueue s.bp.queue s
  | _, _ => s

/-- The arbiter's choice (R128): identification before access. It is made at the end of a cycle, when an entry or
a slot joins, and after a failed start check, as part of that event (assumption 5). -/
def State.arbitrate (s : State) : State := s.chooseIdentification.chooseAccess

/-- The cycle record is removed and the guard is cleared (R134 step 2). -/
def State.freeBackplane (s : State) : State :=
  { s with bp := { s.bp with cycle := none, guardHold := none } }

/-- The cycle in flight ends with an outcome. An identification hands it to the Slot Directory (R130); an ACCESS
forms its response unless the discard mark is set, clears the guard and runs a walk (R134). The arbiter then
chooses again. -/
def State.endCycle (outcome : CycleOutcome) (s : State) : State :=
  match s.bp.cycle with
  | none => s
  | some { kind := .identify slot, .. } => (s.freeBackplane.identified slot outcome).arbitrate
  | some { kind := .access h _ _ op _ discard, .. } =>
    ((if discard then s else s.answer h .done (accessPayload op outcome)).freeBackplane).walk.arbitrate

/-- What a cycle presents to the module on the backplane, from its start to its end: an identification a READ of
register 255 of channel 0 (R130), an ACCESS its own channel, operation and register (R132, R133). -/
def CycleKind.presented : CycleKind → Presented
  | .identify slot => { slot, channel := 0, op := .read, register := 255 }
  | .access _ slot channel op register _ => { slot, channel, op, register }

/-- What the cycle in flight presents to its module, if one is in flight. -/
def State.presented (s : State) : Option Presented := s.bp.cycle.map (fun c => c.kind.presented)

/-- The slot of a cycle. -/
def CycleKind.slot (k : CycleKind) : SlotNo := k.presented.slot

/-- The session that an ACCESS cycle was started for (R132); an identification has none. -/
def CycleKind.session? : CycleKind → Option Addr
  | .identify _ => none
  | .access session _ _ _ _ _ => some session

/-- Is a cycle in flight on this slot? -/
def State.cycleOn (s : State) (slot : SlotNo) : Bool :=
  match s.bp.cycle with
  | some c => decide (c.kind.slot = slot)
  | none => false

/-- The discard mark of the ACCESS cycles chosen is set (R135, R140). -/
def CycleKind.discardIf (p : Addr → Bool) : CycleKind → CycleKind
  | .identify slot => .identify slot
  | .access h slot ch op reg discard => .access h slot ch op reg (discard || p h)

end Sys2Proof.Machine
end

