-- ==== Sys2Proof/Machine/Closing.lean ====
section
/-! DEFINITION. The close of a session (R92) and the link clear (R172), each gathering what every block does. -/

namespace Sys2Proof.Machine

/-! ### Closing one session (R92 steps 1 to 7) -/

/-- The Sequencer removes the session's queued access and marks its cycle for discard (R92 step 2, R135). -/
def Backplane.close (h : Addr) (b : Backplane) : Backplane :=
  { b with queue := b.queue.filter (fun e => decide (e.session ≠ h)),
           cycle := b.cycle.map (fun c => { c with kind := c.kind.discardIf (fun x => decide (x = h)) }) }

/-- What is in transmission for the closed session is finished by the transmitter, and its outcome is ignored
(R92 steps 4 and 5, R94, R165). -/
def TxItem.close (h : Addr) : TxItem → TxItem
  | .response r => .response (if r.host = h ∧ r.owner = .session then { r with owner := .closed } else r)
  | .entry host seq isOpen => .entry host seq (isOpen && decide (host ≠ h))

/-- Is this a response of the open session of the host? -/
def Response.isOf (h : Addr) (r : Response) : Bool := decide (r.host = h) && decide (r.owner = .session)

/-- The session's responses that are formed and not yet transmitted are discarded (R92 step 5). -/
def Link.close (h : Addr) (l : Link) : Link :=
  { l with tx := l.tx.map (fun t => { t with item := t.item.close h }),
           responses := l.responses.filter (fun r => !r.isOf h) }

/-- The attempt of the closed session ends; the pointer stays (R165). -/
def Delivery.close (h : Addr) (d : Delivery) : Delivery :=
  { d with attempt := match d.attempt with
      | some a => if a.host = h then none else some a
      | none => none }

/-- A session is closed (R92 steps 1 to 7, R94). Its Outbound Queue goes with its record. -/
def State.closeSession (h : Addr) (s : State) : State :=
  let s := s.closeLeases h
  { s with
    bp := s.bp.close h,
    bookings := s.bookings.filter (fun b => decide (b.session ≠ h)),
    delivery := s.delivery.close h,
    link := s.link.close h,
    sessions := s.sessions.filter (fun x => decide (x.host ≠ h)) }

/-! ### The link clear (R172) -/

/-- The Lease Manager's records after a link clear (R41, R66). -/
def LeaseManager.clear (m : LeaseManager) : LeaseManager :=
  { leases := [], waits := [], tokenCounter := m.tokenCounter, arrivalCounter := 0 }

/-- The Sequencer's records after a link clear (R140): the guard, the identification set and the cycle stay, an
ACCESS cycle with its discard mark set. -/
def Backplane.clear (b : Backplane) : Backplane :=
  { b with queue := [],
           cycle := b.cycle.map (fun c => { c with kind := c.kind.discardIf (fun _ => true) }) }

/-- The Panel Block's records after a link clear: both address switches are sampled, nothing is committed, the
configuration and the switch position stay (R115, R120, R121, R122, R174). -/
def Panel.clear (p : Panel) : Panel :=
  { p with nodeAddress := p.switches.node, managerAddress := p.switches.manager, clearCommitted := false }

/-- A link clear (R172; the table of R119). The Slot Directory, the link-reset condition and the token counter
stay as they are. -/
def State.linkClear (s : State) : State :=
  { s with
    link := { s.link with receive := .idle, tx := none, responses := [] },
    sessions := [],
    lm := s.lm.clear,
    bp := s.bp.clear,
    bookings := [],
    delivery := { attempt := none, pointer := none },
    panel := s.panel.clear }

/-- The address switches as they read at an event at which a sample may be made (R120, R121, assumption 12). -/
def State.readSwitches (sw : Switches) (s : State) : State := { s with panel := { s.panel with switches := sw } }

end Sys2Proof.Machine
end

