-- ==== Sys2Proof/Machine/Access.lean ====
section
/-! DEFINITION. The Backplane Sequencer's command and events: ACCESS (R126), IDENTIFICATION_START (R130),
ACCESS_START_CHECK (R131), MODULE_ANSWER and SILENCE_EXPIRY (R133). -/

namespace Sys2Proof.Machine

/-- Does the operation write? -/
def Operation.writes : Operation → Bool
  | .read => false
  | .write _ => true

/-- The arrival checks of ACCESS (R126), with the field indexes of R176: the entry that joins the Access Queue. -/
def State.accessChecks (s : State) (h : Addr) (a : AccessFields) : Except Denial AccessEntry :=
  if s.panel.service = .service then .error (.status .offline)
  else
    match matchLease s.lm.leases h a.handle a.token with
    | none => .error (.status .stale)
    | some l =>
      match channelNoOf a.channel with
      | none => .error (.fault .badAccess (some 2))
      | some c =>
        if l.resource.contains (s.slots[l.resource.slot]).state c = false then
          .error (.fault .badAccess (some 2))
        else if a.op.writes = true ∧ l.mode ≠ .exclusive then .error (.fault .badAccess (some 3))
        else if a.op.writes = true ∧ a.register = 255 then .error (.fault .badAccess (some 4))
        else
          .ok { session := h, handle := l.handle, token := l.token, channel := c, op := a.op,
                register := a.register, slot := l.resource.slot }

/-- An entry joins the Access Queue at the tail, and the arbiter chooses (R127, R128). -/
def State.joinQueue (e : AccessEntry) (s : State) : State :=
  ({ s with bp := { s.bp with queue := s.bp.queue ++ [e] } }).arbitrate

/-- An ACCESS taken as a new request (R126): turned away at once, or queued with no response yet. -/
def State.takeAccess (payload : List Byte) (h : Addr) (s : State) : State :=
  s.parsed h (parseAccess payload) (fun a s =>
    match s.accessChecks h a with
    | .error d => s.deny h d
    | .ok e => s.joinQueue e)

/-- ACCESS. -/
def execAccess (f : Frame) (s : State) : Host.Outcome State Fault Refusal :=
  .next (s.takeRequest Kind.access f (State.noSession f.seq) (State.takeAccess f.payload))

/-- IDENTIFICATION_START: the arbiter takes the lowest pending slot, if the backplane is free (R128, R130). -/
def execIdentificationStart (s : State) : Host.Outcome State Fault Refusal := .next s.chooseIdentification

/-- ACCESS_START_CHECK: the arbiter takes the head of the Access Queue, if the backplane is free and no
identification is pending (R128, R131). -/
def execAccessStartCheck (s : State) : Host.Outcome State Fault Refusal := .next s.chooseAccess

/-- The outcome of a module's answer (R133). -/
def answerOutcome : ModuleAnswer → CycleOutcome
  | .accept word => .accepted word
  | .refuse => .refused

/-- MODULE_ANSWER: ends the cycle in flight on the slot; with none there, it is ignored (R133). -/
def execModuleAnswer (slot : SlotNo) (answer : ModuleAnswer) (s : State) : Host.Outcome State Fault Refusal :=
  .next (if s.cycleOn slot then s.endCycle (answerOutcome answer) else s)

/-- tSILENCE of the cycle in flight runs out: it ends SILENT (R133). -/
def State.fallSilent (s : State) : State :=
  match s.bp.cycle with
  | some c => (s.reach c.silence).endCycle .silent
  | none => s

/-- SILENCE_EXPIRY. -/
def execSilenceExpiry (s : State) : Host.Outcome State Fault Refusal := .next s.fallSilent

end Sys2Proof.Machine
end

