-- ==== Sys2Proof/Machine/Bookings.lean ====
section
/-! DEFINITION. The requests of the Booking Unit: BOOK (R143), UNBOOK (R149) and REARM (R148). -/

namespace Sys2Proof.Machine

/-- Is this the booking of the session on the slot (R142)? -/
def Booking.isOf (h : Addr) (slot : SlotNo) (b : Booking) : Bool := decide (b.session = h) && decide (b.slot = slot)

/-- The session's booking on the slot becomes ARMED with this mode, created if there is none (R143 step 1). The
table has no order. -/
def State.putBooking (h : Addr) (slot : SlotNo) (mode : BookingMode) (s : State) : State :=
  { s with bookings := s.bookings.filter (fun b => !b.isOf h slot) ++
      [{ session := h, slot, mode, state := .armed }] }

/-- A booking that has become ARMED on a slot with a raised effective level fires at once (R15). -/
def State.fireIfRaised (h : Addr) (slot : SlotNo) (s : State) : State :=
  if (s.slots[slot]).effective then s.fire (Booking.isOf h slot) else s

/-- The slot of BOOK, UNBOOK and REARM: step 1 of the resource check on the slot alone (R110). -/
def bookingSlot (slot : Byte) : Except Denial SlotNo :=
  match slotOf slot with
  | some sl => .ok sl
  | none => .error (.fault .badResource (some 0))

/-- A BOOK taken as a new request (R143). -/
def State.takeBook (payload : List Byte) (h : Addr) (s : State) : State :=
  s.parsed h (parseBook payload) (fun (slot, mode) s =>
    s.parsed h (bookingSlot slot) (fun slot s =>
      ((s.putBooking h slot mode).fireIfRaised h slot).answer h .done []))

/-- BOOK. -/
def execBook (f : Frame) (s : State) : Host.Outcome State Fault Refusal :=
  .next (s.takeRequest Kind.book f (State.noSession f.seq) (State.takeBook f.payload))

/-- The booking and the undelivered ATTENTION entry of the slot go (R149 steps 1 and 2). -/
def State.dropBooking (h : Addr) (slot : SlotNo) (s : State) : State :=
  ({ s with bookings := s.bookings.filter (fun b => !b.isOf h slot) }).mapQueue h
    (fun q => q.unbook (s.flying h) slot)

/-- An UNBOOK taken as a new request (R149). -/
def State.takeUnbook (payload : List Byte) (h : Addr) (s : State) : State :=
  s.parsed h (parseSlot payload) (fun slot s =>
    s.parsed h (bookingSlot slot) (fun slot s => (s.dropBooking h slot).answer h .done []))

/-- UNBOOK. -/
def execUnbook (f : Frame) (s : State) : Host.Outcome State Fault Refusal :=
  .next (s.takeRequest Kind.unbook f (State.noSession f.seq) (State.takeUnbook f.payload))

/-- The session's booking on the slot is armed (R148). -/
def State.armBooking (h : Addr) (slot : SlotNo) (s : State) : State :=
  { s with bookings := s.bookings.map (fun b => if b.isOf h slot then { b with state := .armed } else b) }

/-- A REARM taken as a new request (R148): STALE without a booking; an ARMED one stays as it is; a FIRED one is
armed, and fires at once on a raised level. -/
def State.takeRearm (payload : List Byte) (h : Addr) (s : State) : State :=
  s.parsed h (parseSlot payload) (fun slot s =>
    s.parsed h (bookingSlot slot) (fun slot s =>
      match s.bookings.find? (Booking.isOf h slot) with
      | none => s.answer h .stale []
      | some b =>
        match b.state with
        | .armed => s.answer h .done []
        | .fired => ((s.armBooking h slot).fireIfRaised h slot).answer h .done []))

/-- REARM. -/
def execRearm (f : Frame) (s : State) : Host.Outcome State Fault Refusal :=
  .next (s.takeRequest Kind.rearm f (State.noSession f.seq) (State.takeRearm f.payload))

end Sys2Proof.Machine
end

