-- ==== Sys2Proof/Machine/Leases.lean ====
section
/-! DEFINITION. The requests and events of the Lease Manager: ACQUIRE (R44), RENEW (R33), RELEASE (R34), CANCEL
(R58), QUERY (R112), LEASE_EXPIRY (R31), GRACE_DEADLINE (R76) and WAIT_DEADLINE (R57). -/

namespace Sys2Proof.Machine

/-! ### ACQUIRE -/

/-- A term is 1 to max term (R29). -/
def State.termOk (s : State) (term : Word16) : Bool :=
  decide (1 ≤ term.toNat) && decide (term.toNat ≤ s.panel.config.maxTerm.toNat)

/-- Steps 1 to 5 of ACQUIRE (R44), with the field indexes of R176. -/
def State.acquireChecks (s : State) (h : Addr) (a : AcquireFields) : Except Denial Resource :=
  if s.panel.service = .service then .error (.status .offline)
  else
    match resourceCheck s.slots 1 2 a.slot a.channel with
    | .error d => .error d
    | .ok r =>
      if s.termOk a.term = false then .error (.fault .badTerm (some 4))
      else if a.urgent = true ∧ s.isManager h = false then .error (.fault .notPermitted (some 6))
      else if a.urgent = true ∧ a.waitLimit = 0 then .error (.fault .badTerm (some 5))
      else .ok r

/-- The outstanding tag set of a host's session (R63). -/
def State.tags (s : State) (h : Addr) : List Tag :=
  match s.session? h with
  | some x => x.tags
  | none => []

/-- The wait record of a deferred ACQUIRE (R48). -/
def State.newWait (s : State) (h : Addr) (a : AcquireFields) (r : Resource) : Wait :=
  { session := h, tag := a.tag, resource := r, mode := a.mode, term := a.term, urgent := a.urgent,
    deadline := s.now + a.waitLimit.toNat * Config.second, arrival := s.lm.arrivalCounter + 1 }

/-- The record joins the pool and the arrival counter advances to its number (R49). -/
def State.addWait (w : Wait) (s : State) : State :=
  { s with lm := { s.lm with waits := insertWait w s.lm.waits, arrivalCounter := w.arrival } }

/-- An ACQUIRE is deferred (R47 step 3): wait record, tag, DEFERRED, and for an urgent one the recall. -/
def State.deferAcquire (h : Addr) (a : AcquireFields) (r : Resource) (s : State) : State :=
  let w := s.newWait h a r
  let s := ((s.addWait w).mapSession h (fun x => { x with tags := x.tags ++ [a.tag] })).answer h .deferred
    [tagByte a.tag]
  if a.urgent then s.recall w else s

/-- Step 6 of ACQUIRE (R44 to R47, R67): granted at once, refused, or deferred. -/
def State.decideAcquire (h : Addr) (a : AcquireFields) (r : Resource) (s : State) : State :=
  let c : Hold := { resource := r, mode := a.mode }
  match s.grantable s.lm.waits c, freeHandle s.lm.leases with
  | true, some handle =>
    (s.addLease (s.newLease handle h c a.term)).answer h .granted (grantedPayload (s.newLease handle h c a.term))
  | grantable, _ =>
    if a.waitLimit = 0 then s.answer h (if grantable then .full else .conflict) []
    else if (s.tags h).contains a.tag then s.answerFault h .tagInUse (some 0)
    else if Config.maxTags ≤ (s.tags h).length then s.answerFault h .tooManyDeferred none
    else s.deferAcquire h a r

/-- An ACQUIRE taken as a new request (R44). -/
def State.takeAcquire (payload : List Byte) (h : Addr) (s : State) : State :=
  s.parsed h (parseAcquire payload) (fun a s =>
    match s.acquireChecks h a with
    | .error d => s.deny h d
    | .ok r => s.decideAcquire h a r)

/-- ACQUIRE. -/
def execAcquire (f : Frame) (s : State) : Host.Outcome State Fault Refusal :=
  .next (s.takeRequest Kind.acquire f (State.noSession f.seq) (State.takeAcquire f.payload))

/-! ### RENEW -/

/-- The lease with this handle takes a new term and expiry (R33). -/
def State.renewLease (handle : Handle) (term : Word16) (s : State) : State :=
  { s with lm := { s.lm with leases := s.lm.leases.map (fun l =>
      if l.handle = handle then { l with term := term, expiry := s.now + term.toNat * Config.second } else l) } }

/-- A RENEW taken as a new request (R32, R33, R73). -/
def State.takeRenew (payload : List Byte) (h : Addr) (s : State) : State :=
  s.parsed h (parseRenew payload) (fun (handle, token, term) s =>
    match matchLease s.lm.leases h handle token with
    | none => s.answer h .stale []
    | some l =>
      match l.state with
      | .recalled deadline _ => s.answer h .recalled [BitVec.ofNat 8 (secondsLeft s.now deadline)]
      | .held =>
        if s.termOk term then (s.renewLease l.handle term).answer h .done (bytes16 term)
        else s.answerFault h .badTerm (some 2))

/-- RENEW. -/
def execRenew (f : Frame) (s : State) : Host.Outcome State Fault Refusal :=
  .next (s.takeRequest Kind.renew f (State.noSession f.seq) (State.takeRenew f.payload))

/-! ### RELEASE -/

/-- A RELEASE taken as a new request (R34): the lease is retired RELEASED, DONE, and a walk runs. -/
def State.takeRelease (payload : List Byte) (h : Addr) (s : State) : State :=
  s.parsed h (parseRelease payload) (fun (handle, token) s =>
    match matchLease s.lm.leases h handle token with
    | none => s.answer h .stale []
    | some l => ((s.retire .released l).answer h .done []).walk)

/-- RELEASE. -/
def execRelease (f : Frame) (s : State) : Host.Outcome State Fault Refusal :=
  .next (s.takeRequest Kind.release f (State.noSession f.seq) (State.takeRelease f.payload))

/-! ### CANCEL -/

/-- A CANCEL taken as a new request (R58). -/
def State.takeCancel (payload : List Byte) (h : Addr) (s : State) : State :=
  s.parsed h (parseCancel payload) (fun tag s =>
    match s.lm.waits.find? (fun w => decide (w.session = h) && decide (w.tag = tag)) with
    | some _ =>
      (((s.dropWait h tag).mapSession h (fun x =>
        { x with tags := x.tags.filter (fun t => decide (t ≠ tag)) })).answer h .done []).walk
    | none => s.answer h (if (s.tags h).contains tag then .late else .stale) [])

/-- CANCEL. -/
def execCancel (f : Frame) (s : State) : Host.Outcome State Fault Refusal :=
  .next (s.takeRequest Kind.cancel f (State.noSession f.seq) (State.takeCancel f.payload))

/-! ### QUERY -/

/-- The payload of a DONE to QUERY (R113, R176): counts, channel count and class code, then the first 16 holders
in grant order. -/
def State.queryPayload (s : State) (r : Resource) : List Byte :=
  let ls := s.lm.leases.filter (fun l => r.overlaps l.resource)
  let ws := s.lm.waits.filter (fun w => r.overlaps w.resource)
  let slot : Byte × Byte :=
    match (s.slots[r.slot]).state with
    | .ready n cls => (n.setWidth 8, cls)
    | .empty | .settling _ | .identifying | .faulted => (0, 0)
  [BitVec.ofNat 8 ls.length, BitVec.ofNat 8 ws.length, slot.1, slot.2] ++
    (ls.take Config.maxHolders).flatMap (holderEntry s.now)

/-- A QUERY taken as a new request (R112). -/
def State.takeQuery (payload : List Byte) (h : Addr) (s : State) : State :=
  s.parsed h (parseQuery payload) (fun (slot, channel) s =>
    match resourceCheck s.slots 0 1 slot channel with
    | .error d => s.deny h d
    | .ok r => s.answer h .done (s.queryPayload r))

/-- QUERY. -/
def execQuery (f : Frame) (s : State) : Host.Outcome State Fault Refusal :=
  .next (s.takeRequest Kind.query f (State.noSession f.seq) (State.takeQuery f.payload))

/-! ### The deadlines of the Lease Manager -/

/-- The expiry of a lease is reached (R31): retired EXPIRED, and a walk runs. A handle that no live lease holds
has no expiry to reach. -/
def State.expireLease (handle : Handle) (s : State) : State :=
  match s.lm.leases.find? (fun l => decide (l.handle = handle)) with
  | some l => ((s.reach l.expiry).retire .expired l).walk
  | none => s

/-- LEASE_EXPIRY. -/
def execLeaseExpiry (h : Handle) (s : State) : Host.Outcome State Fault Refusal := .next (s.expireLease h)

/-- The grace deadline of a group is reached (R76): its live members are revoked in grant order, and one walk
runs. With no member left, nothing happens. -/
def State.revokeGroup (group : Arrival) (s : State) : State :=
  match groupDeadline s.lm.leases group with
  | some d => ((s.reach d).retireAll .revoked (groupLeases s.lm.leases group)).walk
  | none => s

/-- GRACE_DEADLINE. -/
def execGraceDeadline (group : Arrival) (s : State) : Host.Outcome State Fault Refusal :=
  .next (s.revokeGroup group)

/-- The deadline of a wait record is reached (R57): removed, TIMED_OUT queued, and a walk runs. -/
def State.timeOutWait (arrival : Arrival) (s : State) : State :=
  match s.lm.waits.find? (fun w => decide (w.arrival = arrival)) with
  | some w => ((s.reach w.deadline).completeWait .timedOut w).walk
  | none => s

/-- WAIT_DEADLINE. -/
def execWaitDeadline (arrival : Arrival) (s : State) : Host.Outcome State Fault Refusal :=
  .next (s.timeOutWait arrival)

end Sys2Proof.Machine
end

