-- ==== Sys2Proof/Machine/LinkEvents.lean ====
section
/-! DEFINITION. The frames and events of the Link Interface and the Delivery Unit: ACK (R162), FRAME_DISCARD (R168),
FRAME_TRUNCATED and START_DELIMITER (R167), TRANSMIT_START (R159), TRANSMISSION_END (R169), CONTENTION_LOSS (R170),
the link reset line (R171) and TACK_EXPIRY (R161). -/

namespace Sys2Proof.Machine

/-! ### Receiving -/

/-- START_DELIMITER (R167): begins a frame in IDLE; anywhere else, while the part transmits or while the link-reset
condition is ASSERTED (R171), it is no delimiter. -/
def execStartDelimiter (s : State) : Host.Outcome State Fault Refusal :=
  .next (if s.receives then { s with link := { s.link with receive := .receiving } } else s)

/-- The receive state returns to IDLE. -/
def State.endReception (s : State) : State := { s with link := { s.link with receive := .idle } }

/-- FRAME_TRUNCATED (R167): the frame in reception is discarded. -/
def execFrameTruncated (s : State) : Host.Outcome State Fault Refusal := .next s.endReception

/-- FRAME_DISCARD (R168): an ended frame that fails a test, or is too long (R167), is discarded silently. A frame
that passes every test is no such frame, and nothing changes (assumption 14). -/
def execFrameDiscard (frameKind kind : Byte) (f : Frame) (s : State) : Host.Outcome State Fault Refusal :=
  .next (if f.payload.length ≤ Config.maxPayload ∧ accepted s.panel.nodeAddress frameKind kind f = true then s
    else s.endReception)

/-! ### ACK -/

/-- A session after the ACK of its entry with this number (R162 steps 1 to 3): the entry is removed, a completion's tag
is freed, and the marker changes as R158 gives. -/
def Session.acked (seq : Byte) (x : Session) : Session :=
  { x with tags := match x.out.ackedTag seq with
             | some tag => x.tags.filter (fun t => decide (t ≠ tag))
             | none => x.tags,
           out := x.out.acked seq }

/-- The number of the session's entry in flight is acknowledged (R162): the attempt ends too. -/
def State.acknowledge (h : Addr) (seq : Byte) (s : State) : State :=
  { s.mapSession h (Session.acked seq) with delivery := { s.delivery with attempt := none } }

/-- The number of the session's entry that was lost to contention and waits to be sent again, if any (R160, R170). -/
def State.contended (s : State) (h : Addr) : Option Byte := (s.session? h).bind (fun x => x.out.contended)

/-- An accepted ACK (R162): taken when the host's session has an entry in flight with its number, else ignored; from a
host without a session it is ignored (R86). An entry lost to contention is not in flight (R160), so its ACK is ignored; in
the time for which R170 names "an ACK of a pending resend", up to the next rest, no frame is received whole (assumption 25,
DEDUCED, unsafe). -/
def State.takeAck (seq : Byte) (h : Addr) (s : State) : State :=
  if s.flying h = some seq then s.acknowledge h seq else s

/-- ACK. Its kind byte and payload are not examined (R168). -/
def execAck (kind : Byte) (f : Frame) (s : State) : Host.Outcome State Fault Refusal :=
  .next (s.takeFrame FrameKind.ack kind f (State.takeAck f.seq))

/-! ### Transmitting -/

/-- The bytes of a response frame (R169). -/
def Response.wire (node : Addr) (r : Response) : List Byte :=
  wireFrame (addrByte r.host) (addrByte node) FrameKind.response r.seq r.status.code r.payload

/-- The bytes of a completion or notice frame (R169). -/
def Entry.wire (node host : Addr) (e : Entry) : List Byte :=
  match e.body with
  | .completion tag outcome =>
    wireFrame (addrByte host) (addrByte node) FrameKind.completion e.seq outcome.code (completionPayload tag outcome)
  | .notice n lost =>
    wireFrame (addrByte host) (addrByte node) FrameKind.notice e.seq n.code (noticePayload n (lost = some true))

/-- The order in which the round-robin considers the host addresses: from the first above the pointer, wrapping from
15 to 1; from 1 when it names no address (R159). -/
def roundRobin (pointer : Option Addr) : List Addr :=
  (List.range 15).map (fun i => BitVec.ofNat 4 (((pointer.map BitVec.toNat).getD 0 + i) % 15 + 1))

/-- Has this session something to send: DELIVERING, with an entry in its queue (R159)? With no entry in flight
every head is undelivered. -/
def Session.ready (x : Session) : Bool := decide (x.delivery = .delivering) && !x.out.entries.isEmpty

/-- The session whose head is sent next (R159). -/
def State.nextSession (s : State) : Option Session :=
  (roundRobin s.delivery.pointer).findSome? (fun h => (s.session? h).filter Session.ready)

/-- A response goes into transmission (R159, R169). -/
def State.startResponse (r : Response) (rest : List Response) (s : State) : State :=
  { s with link := { s.link with
      tx := some { item := .response r, wire := r.wire s.panel.nodeAddress }, responses := rest } }

/-- The head of a session's queue goes into transmission: it is in flight (R155), its LOST flag is fixed at the first
transmission (R158), and it is sent with the tACK now in force (R116, assumption 15). -/
def State.startEntry (h : Addr) (e : Entry) (s : State) : State :=
  { s.mapQueue h OutboundQueue.started with
    link := { s.link with
      tx := some { item := .entry h e.seq true, wire := e.wire s.panel.nodeAddress h } },
    delivery := { s.delivery with
      attempt := some { host := h, seq := e.seq, tAck := s.panel.config.tAck, deadline := none } } }

/-- The choice of R159: the oldest response; else, with no outbound entry in flight, the round-robin's head. -/
def State.chooseFrame (s : State) : State :=
  match s.link.responses with
  | r :: rest => s.startResponse r rest
  | [] =>
    match s.delivery.attempt, s.nextSession with
    | none, some x =>
      match x.out.started.entries with
      | e :: _ => s.startEntry x.host e
      | [] => s
    | _, _ => s

/-- May the transmitter start: pair at rest (the command says so), idle, not receiving, line RELEASED (R171), part
addressed (R169, R173)? -/
def State.maySend (s : State) : Bool :=
  s.receives && decide (s.link.receive = .idle) && decide (s.panel.nodeAddress ≠ 0)

/-- TRANSMIT_START. -/
def execTransmitStart (s : State) : Host.Outcome State Fault Refusal :=
  .next (if s.maySend then s.chooseFrame else s)

/-- The transmitter is idle again. -/
def State.endTx (s : State) : State := { s with link := { s.link with tx := none } }

/-- The end of a response is reported (R97, R169); the committed clear that hangs on it is made (R119). -/
def State.responseEnded (r : Response) (s : State) : State :=
  let s := if r.endsFlight then s.mapSession r.host (fun x => { x with inFlight := false }) else s
  if r.clears && s.panel.clearCommitted then s.linkClear else s

/-- The wait for the ACK of the entry in flight starts: until now plus its tACK (R161). -/
def Attempt.await (now : Instant) (a : Attempt) : Attempt :=
  { a with deadline := some (now + a.tAck.toNat * Config.millisecond) }

/-- The end of an outbound entry's transmission (R159, R161): the pointer names its session, and, unless that session
has been closed meanwhile (R165), the tACK wait starts. -/
def State.entryEnded (h : Addr) (isOpen : Bool) (s : State) : State :=
  { s with delivery := {
      pointer := some h,
      attempt := if isOpen then s.delivery.attempt.map (Attempt.await s.now) else s.delivery.attempt } }

/-- The frame in transmission ends without contention loss (R169). -/
def State.transmissionEnd (s : State) : State :=
  match s.link.tx with
  | some { item := .response r, .. } => s.endTx.responseEnded r
  | some { item := .entry h _ isOpen, .. } => s.endTx.entryEnded h isOpen
  | none => s

/-- TRANSMISSION_END. -/
def execTransmissionEnd (sw : Switches) (s : State) : Host.Outcome State Fault Refusal :=
  .next (s.readSwitches sw).transmissionEnd

/-- A response lost to contention stays pending in its place, the front (R170). One whose session has been closed
meanwhile is discarded (R92 step 5, R170), and so is one of the second group that a later one has displaced (R159). -/
def State.responseLost (r : Response) (s : State) : State :=
  match r.owner with
  | .closed => if r.clears && s.panel.clearCommitted then s.linkClear else s
  | .session | .noSession =>
    if !r.taken && s.link.responses.any (fun q => decide (q.taken = false) && decide (q.host = r.host)) then s
    else { s with link := { s.link with responses := r :: s.link.responses } }

/-- An outbound entry lost to contention is undelivered again; nothing is counted and the pointer stays (R160). If it is
an ATTENTION entry, a later ATTENTION entry for its slot is removed, as at tACK expiry: R160 names no removal, and R147
and R155 allow one undelivered ATTENTION entry for each slot at every instant (assumption 24, DEDUCED, unsafe). The
attempt of a session closed meanwhile is gone already (R165). -/
def State.entryLost (isOpen : Bool) (s : State) : State :=
  match isOpen, s.delivery.attempt with
  | true, some a =>
    { s.mapQueue a.host (fun q => q.contend a.seq) with delivery := { s.delivery with attempt := none } }
  | _, _ => s

/-- The frame in transmission is lost to contention (R170). -/
def State.contentionLoss (s : State) : State :=
  match s.link.tx with
  | some { item := .response r, .. } => s.endTx.responseLost r
  | some { item := .entry _ _ isOpen, .. } => s.endTx.entryLost isOpen
  | none => s

/-- CONTENTION_LOSS. -/
def execContentionLoss (s : State) : Host.Outcome State Fault Refusal := .next s.contentionLoss

/-! ### The link reset line -/

/-- The line is asserted (R171): reception truncated, transmission abandoned, a link clear made in place of a committed
one. While it is ASSERTED there is no further assertion. -/
def State.assertReset (sw : Switches) (s : State) : State :=
  if s.link.resetLine = .asserted then s
  else { (s.readSwitches sw).linkClear with
    link := { receive := .idle, resetLine := .asserted, tx := none, responses := [] } }

/-- LINK_RESET_ASSERT. -/
def execLinkResetAssert (sw : Switches) (s : State) : Host.Outcome State Fault Refusal := .next (s.assertReset sw)

/-- LINK_RESET_RELEASE: no clear, no sample (R171). -/
def execLinkResetRelease (s : State) : Host.Outcome State Fault Refusal :=
  .next { s with link := { s.link with resetLine := .released } }

/-! ### TACK_EXPIRY -/

/-- A session after the tACK expiry of its entry: STALLED when the count reaches the configured attempts (R161,
R163). -/
def Session.tackExpired (attempts : Byte) (seq : Byte) (x : Session) : Session :=
  { x with out := x.out.expired seq,
           delivery := if attempts.toNat ≤ (x.out.expired seq).attempts then .stalled else x.delivery }

/-- tACK of the attempt awaiting its ACK runs out (R161). -/
def State.tackExpiry (s : State) : State :=
  match s.delivery.attempt with
  | some { host, seq, deadline := some d, .. } =>
    { (s.reach d).mapSession host (Session.tackExpired s.panel.config.attempts seq) with
      delivery := { s.delivery with attempt := none } }
  | _ => s

/-- TACK_EXPIRY. -/
def execTackExpiry (s : State) : Host.Outcome State Fault Refusal := .next s.tackExpiry

end Sys2Proof.Machine
end

