-- ==== Sys2Proof/Machine/PanelBlock.lean ====
section
/-! DEFINITION. The requests and events of the Panel Block: POWER_ON (R42), PROBE (R114), CONFIGURE (R117), RESET
CONTROLLER (R119), and the service switch (R64, R65, R122). -/

namespace Sys2Proof.Machine

/-! ### POWER_ON -/

/-- A slot record after power-on (R16): SETTLING where presence is asserted, EMPTY elsewhere. -/
def SlotRecord.powerOn (now : Instant) (presence attention : Bool) : SlotRecord :=
  { state := if presence then .settling (now + Config.tSettle) else .empty, presence, attention }

/-- Every record takes its power-on value, the lines and switches as they stand (R16, R42, R66, R105, R115, R120 to
R122, R141, R153, R166, R174). The queue of commands and the part's time are no records of the part. -/
def State.powerOn (p : Pins) (s : State) : State :=
  { pending := s.pending,
    now := s.now,
    link := .powerOn p.resetLow,
    sessions := [],
    lm := .powerOn,
    bp := .powerOn,
    slots := Vector.ofFn (fun i => SlotRecord.powerOn s.now p.presence[i] p.attention[i]),
    bookings := [],
    delivery := .powerOn,
    panel := .powerOn p.switches p.service }

/-- POWER_ON. -/
def execPowerOn (p : Pins) (s : State) : Host.Outcome State Fault Refusal := .next (s.powerOn p)

/-! ### PROBE -/

/-- The payload of a DONE to PROBE (R114, R176). -/
def State.probePayload (s : State) : List Byte :=
  bytes16 Config.product ++
    [addrByte s.panel.nodeAddress, addrByte s.panel.managerAddress, serviceCode s.panel.service,
     BitVec.ofNat 8 (Config.maxSessions - s.sessions.length),
     BitVec.ofNat 8 (Config.maxLeases - s.lm.leases.length),
     BitVec.ofNat 8 (Config.maxWaits - s.lm.waits.length)] ++
    s.slots.toList.map (fun r => r.state.probeByte)

/-- The answer to PROBE from a host without a session, stored nowhere (R86). -/
def State.probeNoSession (seq : Byte) (h : Addr) (s : State) : State :=
  s.reply h seq .done s.probePayload .noSession

/-- A PROBE taken as a new request (R114); its payload is not examined. -/
def State.takeProbe (h : Addr) (s : State) : State := s.answer h .done s.probePayload

/-- PROBE: from a host without a session answered with no sequence check and stored nowhere (R86); from a host
with a session a request like any other (R114). -/
def execProbe (f : Frame) (s : State) : Host.Outcome State Fault Refusal :=
  .next (s.takeRequest Kind.probe f (State.probeNoSession f.seq) State.takeProbe)

/-! ### CONFIGURE -/

/-- A value within 1 to a bound (R115). -/
def inRange (v top : Nat) : Bool := decide (1 ≤ v) && decide (v ≤ top)

/-- The index of the first configuration field out of range (R115, R117 step 2). -/
def ConfigRecord.firstBad (c : ConfigRecord) : Option FieldIndex :=
  if inRange c.tGrace.toNat 60 = false then some 0
  else if inRange c.tAck.toNat 50 = false then some 1
  else if inRange c.attempts.toNat 8 = false then some 2
  else if inRange c.maxTerm.toNat 4095 = false then some 3
  else none

/-- The Panel Block's checks of CONFIGURE (R117). -/
def State.configureDenial (s : State) (c : ConfigRecord) : Option Denial :=
  if s.lm.leases ≠ [] ∨ s.lm.waits ≠ [] then some (.fault .configLocked none)
  else
    match c.firstBad with
    | some i => some (.fault .badConfig (some i))
    | none => none

/-- The configuration record takes its four values in one step (R118). -/
def State.setConfig (c : ConfigRecord) (s : State) : State := { s with panel := { s.panel with config := c } }

/-- A CONFIGURE taken as a new request (R104, R117, R118). -/
def State.takeConfigure (payload : List Byte) (h : Addr) (s : State) : State :=
  s.parsed h (parseConfigure payload) (fun c s =>
    if s.isManager h then
      match s.configureDenial c with
      | some d => s.deny h d
      | none => (s.setConfig c).answer h .done c.payload
    else s.answerFault h .notPermitted none)

/-- CONFIGURE. -/
def execConfigure (f : Frame) (s : State) : Host.Outcome State Fault Refusal :=
  .next (s.takeRequest Kind.configure f (State.noSession f.seq) (State.takeConfigure f.payload))

/-! ### RESET CONTROLLER -/

/-- A link clear is committed (R119). -/
def State.commitClear (s : State) : State := { s with panel := { s.panel with clearCommitted := true } }

/-- A RESET CONTROLLER taken as a new request (R104, R119): DONE, and the clear is committed to its end. -/
def State.takeResetController (payload : List Byte) (h : Addr) (s : State) : State :=
  s.parsed h (parseEmpty payload) (fun _ s =>
    if s.isManager h then s.commitClear.answerWith h .done [] true
    else s.answerFault h .notPermitted none)

/-- RESET_CONTROLLER. -/
def execResetController (f : Frame) (s : State) : Host.Outcome State Fault Refusal :=
  .next (s.takeRequest Kind.resetController f (State.noSession f.seq) (State.takeResetController f.payload))

/-! ### The service switch -/

/-- The recorded position changes (R122). -/
def State.setService (p : Service) (s : State) : State := { s with panel := { s.panel with service := p } }

/-- SWITCH_TO_SERVICE: no record changes but the position (R64, R137). -/
def execSwitchToService (s : State) : Host.Outcome State Fault Refusal := .next (s.setService .service)

/-- SWITCH_TO_ONLINE: a change runs a walk (R65); a change to the position already recorded is none (R122). -/
def execSwitchToOnline (s : State) : Host.Outcome State Fault Refusal :=
  .next (if s.panel.service = .online then s else (s.setService .online).walk)

end Sys2Proof.Machine
end

