-- ==== Sys2Proof/WellFormed.lean ====
section
/-! DEFINITION. Which commands are well formed: the payload fits its length byte, and an unknown kind code
is not one of the 15 request kinds. -/

namespace Sys2Proof

/-- The codes of the 15 request kinds (R175). -/
def requestKinds : List Byte :=
  [0x01, 0x02, 0x03, 0x10, 0x20, 0x11, 0x12, 0x13, 0x14, 0x41, 0x30, 0x31, 0x32, 0x40, 0x42]

/-- A payload is 0 to 96 bytes (R167). -/
def Frame.wf (f : Frame) : Bool := f.payload.length ≤ Config.maxPayload

/-- A command is well formed when its frame is, and the kind of an unknown request is unknown (R108). The
commands without a frame are always well formed: their operands are bounded by their types. -/
def Instr.wf : Instr → Bool
  | .openSession _ f | .closeSession f | .fetchFault f | .acquire f | .renew f | .release f | .cancel f
  | .query f | .access f | .book f | .unbook f | .rearm f | .probe f | .configure f | .resetController f
  | .ack _ f | .frameDiscard _ _ f => f.wf
  | .unknownRequestKind k f => f.wf && !requestKinds.contains k
  | .powerOn _ | .frameTruncated | .transmitStart | .transmissionEnd _ | .contentionLoss
  | .linkResetAssert _ | .linkResetRelease | .tackExpiry | .leaseExpiry _ | .graceDeadline _
  | .waitDeadline _ | .switchToService | .switchToOnline | .presenceRise _ | .presenceDrop _
  | .settlingDeadline _ | .attentionRise _ | .attentionFall _ | .identificationStart
  | .accessStartCheck | .moduleAnswer _ _ | .silenceExpiry | .startDelimiter => true

end Sys2Proof
end

