-- ==== Sys2Proof/Machine/Sessions.lean ====
section
/-! DEFINITION. The requests that the Session Manager carries out: OPEN (R88 to R91), CLOSE (R92), FETCH FAULT
(R103) and a request of unknown kind (R108). -/

namespace Sys2Proof.Machine

/-! ### OPEN -/

/-- The payload of the DONE to OPEN: class and replaced (R176). -/
def openPayload (cls : SessionClass) (replaced : Bool) : List Byte := [cls.code, flagByte replaced]

/-- The record of a session that opens (R91). -/
def Session.opened (h : Addr) (cls : SessionClass) (seq : Byte) (replaced : Bool) : Session :=
  { host := h, cls, inFlight := true, lastSeq := seq, lastKind := Kind.openSession,
    stored := some { status := .done, payload := openPayload cls replaced },
    tags := [], fault := none, delivery := .delivering, out := .opened }

/-- A session opens, and its DONE is formed (R88, R91). -/
def State.openSession (h : Addr) (seq : Byte) (replaced : Bool) (s : State) : State :=
  ({ s with sessions := s.sessions ++ [Session.opened h (s.panel.classOf h) seq replaced] }).pushResponse
    { host := h, seq, status := .done, payload := openPayload (s.panel.classOf h) replaced,
      taken := true, owner := .session, clears := false }

/-- Does closing this host's session discard the DONE on which a committed link clear hangs (R119)? -/
def State.closeDropsClear (h : Addr) (s : State) : Bool :=
  s.panel.clearCommitted && s.link.responses.any (fun r => r.isOf h && r.clears)

/-- A replacement (R90): the old session is closed and a new one opened in one event. When it discards the DONE of
a RESET CONTROLLER, the committed clear is made once the replacement has completed (R119). -/
def State.replaceSession (h : Addr) (seq : Byte) (s : State) : State :=
  if s.closeDropsClear h then ((s.closeSession h).openSession h seq true).linkClear
  else (s.closeSession h).openSession h seq true

/-- An accepted OPEN (R88, R89, R90): opened, FULL, replayed, ignored, or a replacement. -/
def State.takeOpen (seq : Byte) (h : Addr) (s : State) : State :=
  match s.session? h with
  | none =>
    if s.sessions.length < Config.maxSessions then s.openSession h seq false
    else s.reply h seq .full [] .noSession
  | some x =>
    if seq = x.lastSeq ∧ x.lastKind = Kind.openSession then
      if x.inFlight then s
      else
        match x.stored with
        | some r => s.reply h seq r.status r.payload .session
        | none => s
    else s.replaceSession h seq

/-- OPEN. -/
def execOpenSession (sw : Switches) (f : Frame) (s : State) : Host.Outcome State Fault Refusal :=
  .next ((s.readSwitches sw).takeFrame FrameKind.request Kind.openSession f (State.takeOpen f.seq))

/-! ### CLOSE -/

/-- A CLOSE taken as a new request: the session is removed, and a DONE that is stored nowhere is formed (R92). -/
def State.takeClose (seq : Byte) (payload : List Byte) (h : Addr) (s : State) : State :=
  s.parsed h (parseEmpty payload) (fun _ s =>
    (s.closeSession h).pushResponse
      { host := h, seq, status := .done, payload := [], taken := true, owner := .noSession, clears := false })

/-- CLOSE. -/
def execCloseSession (f : Frame) (s : State) : Host.Outcome State Fault Refusal :=
  .next (s.takeRequest Kind.closeSession f (State.noSession f.seq) (State.takeClose f.seq f.payload))

/-! ### FETCH FAULT -/

/-- FETCH FAULT answers DONE with the session's fault record, if any, and removes it (R103). -/
def State.takeFetchFault (payload : List Byte) (h : Addr) (s : State) : State :=
  s.parsed h (parseEmpty payload) (fun _ s =>
    match (s.session? h).bind Session.fault with
    | some r => (s.mapSession h (fun x => { x with fault := none })).answer h .done r.payload
    | none => s.answer h .done [])

/-- FETCH FAULT. -/
def execFetchFault (f : Frame) (s : State) : Host.Outcome State Fault Refusal :=
  .next (s.takeRequest Kind.fetchFault f (State.noSession f.seq) (State.takeFetchFault f.payload))

/-! ### A request of unknown kind -/

/-- A new request of unknown kind is answered FAULT BAD_KIND (R108). -/
def State.takeUnknown (h : Addr) (s : State) : State := s.answerFault h .badKind none

/-- UNKNOWN_REQUEST_KIND. With a kind code that is known there is no such frame, and nothing changes (assumption
14). -/
def execUnknownRequestKind (kind : Byte) (f : Frame) (s : State) : Host.Outcome State Fault Refusal :=
  .next (if requestKinds.contains kind then s
    else s.takeRequest kind f (State.noSession f.seq) State.takeUnknown)

end Sys2Proof.Machine
end

