-- ==== Sys2Proof/Machine/Slots.lean ====
section
/-! DEFINITION. The events of the Slot Directory: presence (R6, R8, R9), settling (R7) and attention (R14). -/

namespace Sys2Proof.Machine

/-- A presence rise (R6): recorded, and an EMPTY slot starts settling. A rise to the level already recorded is no
event (01, 1.5). -/
def State.presenceRise (slot : SlotNo) (s : State) : State :=
  if (s.slots[slot]).presence then s
  else s.setSlot slot (fun r =>
    { r with presence := true,
             state := match r.state with
               | .empty => .settling (s.now + Config.tSettle)
               | .settling d => .settling d
               | .identifying => .identifying
               | .ready n c => .ready n c
               | .faulted => .faulted })

/-- PRESENCE_RISE. -/
def execPresenceRise (slot : SlotNo) (s : State) : Host.Outcome State Fault Refusal := .next (s.presenceRise slot)

/-- The slot is withdrawn from the pending identification set (R8, R129). -/
def State.withdraw (slot : SlotNo) (s : State) : State :=
  { s with bp := { s.bp with pendingIds := s.bp.pendingIds.filter (fun x => decide (x ≠ slot)) } }

/-- A cycle in flight on the slot ends SILENT (R8, R130, R136). -/
def State.silenceSlot (slot : SlotNo) (s : State) : State :=
  if s.cycleOn slot then s.endCycle .silent else s

/-- The slot is EMPTY and its presence released (R8, R9). -/
def State.emptySlot (slot : SlotNo) (s : State) : State :=
  s.setSlot slot (fun r => { r with presence := false, state := .empty })

/-- A presence drop (R8, R9): from IDENTIFYING the identification is withdrawn; from READY it is a vacate, taken by
the Lease Manager and then by the Sequencer (assumption 18). A drop to the level already recorded is no event. -/
def State.presenceDrop (slot : SlotNo) (s : State) : State :=
  if (s.slots[slot]).presence = false then s
  else
    match (s.slots[slot]).state with
    | .ready _ _ => ((s.emptySlot slot).vacateLeases slot).silenceSlot slot
    | .identifying => ((s.emptySlot slot).withdraw slot).silenceSlot slot
    | .empty | .settling _ | .faulted => s.emptySlot slot

/-- PRESENCE_DROP. -/
def execPresenceDrop (slot : SlotNo) (s : State) : Host.Outcome State Fault Refusal := .next (s.presenceDrop slot)

/-- A slot joins the pending identification set, and the arbiter chooses (R128, R129). -/
def State.joinIdentification (slot : SlotNo) (s : State) : State :=
  ({ s with bp := { s.bp with pendingIds := insertSlot slot s.bp.pendingIds } }).arbitrate

/-- The settling deadline of a slot in SETTLING is reached (R7): IDENTIFYING, and it awaits identification. -/
def State.settled (slot : SlotNo) (s : State) : State :=
  match (s.slots[slot]).state with
  | .settling d =>
    ((s.reach d).setSlot slot (fun r => { r with state := .identifying })).joinIdentification slot
  | .empty | .identifying | .ready _ _ | .faulted => s

/-- SETTLING_DEADLINE. -/
def execSettlingDeadline (slot : SlotNo) (s : State) : Host.Outcome State Fault Refusal := .next (s.settled slot)

/-- An attention rise (R14): recorded, and reported while the slot is READY. A rise to the level already recorded
is no event. -/
def State.attentionRise (slot : SlotNo) (s : State) : State :=
  if (s.slots[slot]).attention then s
  else (s.setSlot slot (fun r => { r with attention := true })).reportIfRaised slot

/-- ATTENTION_RISE. -/
def execAttentionRise (slot : SlotNo) (s : State) : Host.Outcome State Fault Refusal :=
  .next (s.attentionRise slot)

/-- ATTENTION_FALL: recorded and reported to no one (R14). -/
def execAttentionFall (slot : SlotNo) (s : State) : Host.Outcome State Fault Refusal :=
  .next (s.setSlot slot (fun r => { r with attention := false }))

end Sys2Proof.Machine
end

