-- ==== Sys2Proof/Machine/Dispatch.lean ====
section
/-! DEFINITION. One arm for each command. -/

namespace Sys2Proof.Machine

def exec (i : Instr) (s : State) : Host.Outcome State Fault Refusal :=
  match i with
  | .powerOn pins => Sys2Proof.Machine.execPowerOn pins s
  | .openSession sw f => Sys2Proof.Machine.execOpenSession sw f s
  | .closeSession f => Sys2Proof.Machine.execCloseSession f s
  | .fetchFault f => Sys2Proof.Machine.execFetchFault f s
  | .acquire f => Sys2Proof.Machine.execAcquire f s
  | .renew f => Sys2Proof.Machine.execRenew f s
  | .release f => Sys2Proof.Machine.execRelease f s
  | .cancel f => Sys2Proof.Machine.execCancel f s
  | .query f => Sys2Proof.Machine.execQuery f s
  | .access f => Sys2Proof.Machine.execAccess f s
  | .book f => Sys2Proof.Machine.execBook f s
  | .unbook f => Sys2Proof.Machine.execUnbook f s
  | .rearm f => Sys2Proof.Machine.execRearm f s
  | .probe f => Sys2Proof.Machine.execProbe f s
  | .configure f => Sys2Proof.Machine.execConfigure f s
  | .resetController f => Sys2Proof.Machine.execResetController f s
  | .unknownRequestKind kind f => Sys2Proof.Machine.execUnknownRequestKind kind f s
  | .ack kind f => Sys2Proof.Machine.execAck kind f s
  | .frameDiscard frameKind kind f => Sys2Proof.Machine.execFrameDiscard frameKind kind f s
  | .frameTruncated => Sys2Proof.Machine.execFrameTruncated s
  | .transmitStart => Sys2Proof.Machine.execTransmitStart s
  | .transmissionEnd sw => Sys2Proof.Machine.execTransmissionEnd sw s
  | .contentionLoss => Sys2Proof.Machine.execContentionLoss s
  | .linkResetAssert sw => Sys2Proof.Machine.execLinkResetAssert sw s
  | .linkResetRelease => Sys2Proof.Machine.execLinkResetRelease s
  | .tackExpiry => Sys2Proof.Machine.execTackExpiry s
  | .leaseExpiry h => Sys2Proof.Machine.execLeaseExpiry h s
  | .graceDeadline group => Sys2Proof.Machine.execGraceDeadline group s
  | .waitDeadline arrival => Sys2Proof.Machine.execWaitDeadline arrival s
  | .switchToService => Sys2Proof.Machine.execSwitchToService s
  | .switchToOnline => Sys2Proof.Machine.execSwitchToOnline s
  | .presenceRise slot => Sys2Proof.Machine.execPresenceRise slot s
  | .presenceDrop slot => Sys2Proof.Machine.execPresenceDrop slot s
  | .settlingDeadline slot => Sys2Proof.Machine.execSettlingDeadline slot s
  | .attentionRise slot => Sys2Proof.Machine.execAttentionRise slot s
  | .attentionFall slot => Sys2Proof.Machine.execAttentionFall slot s
  | .identificationStart => Sys2Proof.Machine.execIdentificationStart s
  | .accessStartCheck => Sys2Proof.Machine.execAccessStartCheck s
  | .moduleAnswer slot answer => Sys2Proof.Machine.execModuleAnswer slot answer s
  | .silenceExpiry => Sys2Proof.Machine.execSilenceExpiry s
  | .startDelimiter => Sys2Proof.Machine.execStartDelimiter s

end Sys2Proof.Machine
end

