-- ==== Sys2Proof/Machine/Idle.lean ====
section
/-! DEFINITION. The idle step: with no command waiting, one of the deadline events that have come due joins the
queue; with none due, one microsecond passes (assumptions 2 and 4). -/

namespace Sys2Proof.Machine

/-- The settling deadlines that have come due. -/
def State.dueSettling (s : State) : List Instr :=
  (List.finRange 16).filterMap (fun slot =>
    match (s.slots[slot]).state with
    | .settling d => if d ≤ s.now then some (.settlingDeadline slot) else none
    | .empty | .identifying | .ready _ _ | .faulted => none)

/-- The lease expiries that have come due. -/
def State.dueLeases (s : State) : List Instr :=
  s.lm.leases.filterMap (fun l => if l.expiry ≤ s.now then some (.leaseExpiry l.handle) else none)

/-- The recall groups whose grace deadline has come due, each once. -/
def State.dueGroups (s : State) : List Instr :=
  ((s.lm.leases.filterMap (fun l =>
    match l.state with
    | .recalled d g => if d ≤ s.now then some g else none
    | .held => none)).eraseDups).map .graceDeadline

/-- The wait deadlines that have come due. -/
def State.dueWaits (s : State) : List Instr :=
  s.lm.waits.filterMap (fun w => if w.deadline ≤ s.now then some (.waitDeadline w.arrival) else none)

/-- The tACK expiry, if it has come due. -/
def State.dueTack (s : State) : List Instr :=
  match s.delivery.attempt with
  | some { deadline := some d, .. } => if d ≤ s.now then [.tackExpiry] else []
  | _ => []

/-- The end of tSILENCE, if it has come due. -/
def State.dueSilence (s : State) : List Instr :=
  match s.bp.cycle with
  | some c => if c.silence ≤ s.now then [.silenceExpiry] else []
  | none => []

/-- Every deadline event that has come due. -/
def State.due (s : State) : List Instr :=
  s.dueSettling ++ s.dueLeases ++ s.dueGroups ++ s.dueWaits ++ s.dueTack ++ s.dueSilence

/-- The due event that is taken first: a free choice among those due (assumption 4). -/
def pickDue (now : Instant) (evs : List Instr) : List Instr :=
  (evs[Config.eventChoice now evs.length % evs.length]?).toList

/-- The idle step. One due event at a time joins the queue, so each is chosen among those still due. -/
def State.idle (s : State) : State :=
  match s.due with
  | [] => { s with now := s.now + 1 }
  | e :: es => { s with pending := pickDue s.now (e :: es) }

end Sys2Proof.Machine
end

