-- ==== Sys2Proof/Safety.lean ====
section
/-! DEFINITION. The terms in which claims about the part are stated: what a safe run is, when a frame is a new request,
what an answer leaves behind, and the laws that the manual states of the records. -/

namespace Sys2Proof.Machine

/-- A run is safe when it neither faults nor is refused: `k` steps from `s` reach a next state. -/
def SafeRun (k : Nat) (s : State) : Prop := ∃ t : State, Sys2Proof.core.run k s = Host.Outcome.next t

/-! ### Frames -/

/-- The frame is accepted (R168) by a link that can take it (R167, R171). -/
structure Accepts (s : State) (frameKind kind : Byte) (f : Frame) : Prop where
  receives : s.receives = true
  short : f.payload.length ≤ Config.maxPayload
  passes : accepted s.panel.nodeAddress frameKind kind f = true

/-- The frame is a REQUEST of this kind that the session `x` of its host has taken as a new request (R96, first
row). -/
structure NewRequest (s : State) (kind : Byte) (f : Frame) (x : Session) : Prop extends
    Accepts s FrameKind.request kind f where
  found : s.session? (frameHost f) = some x
  next : f.seq = x.lastSeq + 1
  free : x.inFlight = false

/-- The state in which a new request is carried out: the receive state is IDLE (R167), a STALLED session has resumed
(R164), and the replay record and the in-flight state are the new request's (R95, R97). -/
def State.taking (s : State) (kind : Byte) (f : Frame) : State :=
  ((s.endReception).mapSession (frameHost f) Session.resume).mapSession (frameHost f)
    (fun y => y.accept f.seq kind)

/-- The response to a new request of an open session. -/
def takenResponse (h : Addr) (seq : Byte) (st : Status) (payload : List Byte) : Response :=
  { host := h, seq, status := st, payload, taken := true, owner := .session, clears := false }

/-- The kind code and the frame of a REQUEST of any kind other than OPEN, known or unknown (R96). -/
def requestOf : Instr → Option (Byte × Frame)
  | .closeSession f => some (Kind.closeSession, f)
  | .fetchFault f => some (Kind.fetchFault, f)
  | .acquire f => some (Kind.acquire, f)
  | .renew f => some (Kind.renew, f)
  | .release f => some (Kind.release, f)
  | .cancel f => some (Kind.cancel, f)
  | .query f => some (Kind.query, f)
  | .access f => some (Kind.access, f)
  | .book f => some (Kind.book, f)
  | .unbook f => some (Kind.unbook, f)
  | .rearm f => some (Kind.rearm, f)
  | .probe f => some (Kind.probe, f)
  | .configure f => some (Kind.configure, f)
  | .resetController f => some (Kind.resetController, f)
  | .unknownRequestKind kind f => if requestKinds.contains kind then none else some (kind, f)
  | _ => none

/-! ### Answers to new requests -/

/-- The record of a session whose new request has been taken and answered: resumed (R164), the replay record is the
request's with its response stored (R95), and the request is in flight unless it was DEFERRED (R97). -/
def Session.answeredNew (kind seq : Byte) (st : Status) (payload : List Byte) (x : Session) : Session :=
  { x.resume with inFlight := decide (st ≠ .deferred), lastSeq := seq, lastKind := kind,
                  stored := some { status := st, payload := payload } }

/-- The fault record of a session after a fault (R101): written with SECOND clear, or kept with SECOND set. -/
def faultAfter (old : Option FaultRecord) (code : FaultCode) (kind seq : Byte) (index : Option FieldIndex) :
    FaultRecord :=
  match old with
  | none => { code, kind, seq, index, second := false }
  | some r => { r with second := true }

/-- The Link Interface after a new request has been answered: reception over, and the response waits behind those
formed before it (R159). -/
def Link.answeredNew (r : Response) (k : Link) : Link :=
  { k with receive := .idle, responses := k.responses ++ [r] }

/-- The state in which a new request has been taken and answered, its session's record changed by `g` besides, and
nothing else has changed. -/
def State.answeredRequestWith (g : Session → Session) (kind : Byte) (f : Frame) (st : Status) (payload : List Byte)
    (s : State) : State :=
  { s with
    link := s.link.answeredNew (takenResponse (frameHost f) f.seq st payload),
    sessions := s.sessions.map (fun x =>
      if x.host = frameHost f then g (x.answeredNew kind f.seq st payload) else x) }

/-- The state in which a new request has been taken and answered, and nothing else has changed. -/
def State.answeredRequest (kind : Byte) (f : Frame) (st : Status) (payload : List Byte) (s : State) : State :=
  s.answeredRequestWith id kind f st payload

/-- The state in which a new request has been turned away: answered with a bare status, or with FAULT and the fault
record written or marked (R101). -/
def State.deniedRequest (kind : Byte) (f : Frame) (d : Denial) (s : State) : State :=
  match d with
  | .status st => s.answeredRequest kind f st []
  | .fault code index =>
    s.answeredRequestWith (fun x => { x with fault := some (faultAfter x.fault code kind f.seq index) })
      kind f .fault []

/-- The state in which a frame that is not a new request has been accepted: the receive state is IDLE (R167) and a
STALLED session of its host has resumed (R164). -/
def State.accepting (f : Frame) (s : State) : State :=
  { s with
    link := { s.link with receive := .idle },
    sessions := s.sessions.map (fun x => if x.host = frameHost f then x.resume else x) }

/-- The Link Interface with a response of the second group (R159): it waits, and an earlier one of that group for the
same host is discarded unsent. -/
def Link.secondGroup (r : Response) (k : Link) : Link :=
  { k with responses := k.responses.filter (fun q => decide (q.taken = true) || decide (q.host ≠ r.host)) ++ [r] }

/-- The state in which an accepted frame has been answered with a response that is stored nowhere. -/
def State.repliedTo (f : Frame) (st : Status) (payload : List Byte) (owner : Owner) (s : State) : State :=
  { s.accepting f with
    link := (s.accepting f).link.secondGroup
      ⟨frameHost f, f.seq, st, payload, false, owner, false⟩ }

/-! ### The payloads that pass the format check (R109, R176) -/

/-- The payload of an ACQUIRE with these fields. -/
def acquirePayload (a : AcquireFields) : List Byte :=
  [tagByte a.tag, a.slot, a.channel, if a.mode = .exclusive then 0x01 else 0x00] ++ bytes16 a.term ++
    [a.waitLimit, flagByte a.urgent]

/-- The payload of an ACCESS with these fields. -/
def accessRequestPayload (a : AccessFields) : List Byte :=
  a.handle :: bytes32 a.token ++
    match a.op with
    | .read => [a.channel, 0x00, a.register]
    | .write data => [a.channel, 0x01, a.register] ++ bytes16 data

/-- A payload of the wrong form for its kind, with the index of the first field at fault (R109): `some none` for a
wrong length, `some (some i)` for field i, `none` for a payload that passes. -/
def formatFault (kind : Byte) (p : List Byte) : Option (Option FieldIndex) :=
  let byte (i : Nat) : Nat := (p.getD i 0).toNat
  if kind = Kind.closeSession ∨ kind = Kind.fetchFault ∨ kind = Kind.resetController then
    if p.length = 0 then none else some none
  else if kind = Kind.acquire then
    if p.length ≠ 8 then some none
    else if 15 < byte 0 then some (some 0)
    else if 1 < byte 3 then some (some 3)
    else if 1 < byte 7 then some (some 6)
    else none
  else if kind = Kind.renew then if p.length = 7 then none else some none
  else if kind = Kind.release then if p.length = 5 then none else some none
  else if kind = Kind.cancel then
    if p.length ≠ 1 then some none else if 15 < byte 0 then some (some 0) else none
  else if kind = Kind.query then if p.length = 2 then none else some none
  else if kind = Kind.access then
    if p.length ≤ 6 then some none
    else if byte 6 = 1 then if p.length = 10 then none else some none
    else if p.length ≠ 8 then some none
    else if 1 < byte 6 then some (some 3)
    else none
  else if kind = Kind.book then
    if p.length ≠ 2 then some none else if 1 < byte 1 then some (some 1) else none
  else if kind = Kind.unbook ∨ kind = Kind.rearm then if p.length = 1 then none else some none
  else if kind = Kind.configure then if p.length = 5 then none else some none
  else none

/-! ### Leases, rises and neighbours -/

/-- The handle and token of a request match this live lease of its session (R32). -/
structure Matches (s : State) (h : Addr) (handle : Byte) (token : Token) (l : Lease) : Prop where
  live : l ∈ s.lm.leases
  handle_eq : handle.toNat = l.handle.val
  token_eq : token = l.token
  holder_eq : l.holder = h

/-- The notice that a retirement or a recall hands to a lease's holder (R37, R72). -/
def Lease.noticeOf (kind : LeaseNotice) (l : Lease) : Notice := .lease kind l.resource l.handle l.token

/-- A lease record but for its state field, which is all that a recall changes (R70). -/
def Lease.sansState (l : Lease) : Lease := { l with state := .held }

/-- A term is 1 to max term (R29). -/
def TermOk (s : State) (term : Word16) : Prop := 1 ≤ term.toNat ∧ term.toNat ≤ s.panel.config.maxTerm.toNat

/-- Has the session of this host an ARMED booking on the slot? -/
def State.armedOn (s : State) (h : Addr) (slot : SlotNo) : Bool :=
  s.bookings.any (fun b => decide (b.session = h) && decide (b.slot = slot) && decide (b.state = .armed))

/-- The state after every booking on the slot that is ARMED and chosen by `p` has fired (R144): ONCE bookings are
removed, STANDING ones are FIRED, their sessions are handed ATTENTION, and nothing else changes. -/
structure Fired (p : Addr → Bool) (slot : SlotNo) (s t : State) : Prop where
  rest : t = { s with bookings := t.bookings, sessions := t.sessions }
  bookings : ∀ b, b ∈ t.bookings ↔
    (b ∈ s.bookings ∧ ¬ (b.slot = slot ∧ p b.session = true ∧ b.state = .armed)) ∨
    (b.state = .fired ∧ b.slot = slot ∧ p b.session = true ∧ b.mode = .standing ∧
      { b with state := .armed } ∈ s.bookings)
  sessions : ∀ h, t.session? h =
    (s.session? h).map (fun x =>
      if p h && s.armedOn h slot then { x with out := x.out.hand (s.flying h) (.attention slot) } else x)

/-- The lowest handle that no live record holds (R19). -/
def LowestFree (leases : List Lease) (hd : Handle) : Prop :=
  (∀ l ∈ leases, l.handle ≠ hd) ∧ ∀ k < hd, ∃ l ∈ leases, l.handle = k

/-- No handle is free (R21). -/
def TableFull (leases : List Lease) : Prop := ∀ hd : Handle, ∃ l ∈ leases, l.handle = hd

/-- An ACQUIRE of the session `x` passes steps 1 to 5 (R44) and names this resource. -/
structure AcquirePasses (s : State) (x : Session) (a : AcquireFields) (r : Resource) : Prop where
  online : s.panel.service = .online
  resource : resourceCheck s.slots 1 2 a.slot a.channel = .ok r
  term : TermOk s a.term
  permitted : a.urgent = true → x.cls = .manager
  mayWait : a.urgent = true → a.waitLimit ≠ 0

/-- The hold that an ACQUIRE asks for. -/
def AcquireFields.hold (a : AcquireFields) (r : Resource) : Hold := { resource := r, mode := a.mode }

/-- The lease's resource contains the channel that this field names (R2, R126 step 3). -/
def Contained (s : State) (l : Lease) (b : Byte) : Prop :=
  ∃ (c : ChannelNo) (n : BitVec 4) (cls : Byte), b.toNat = c.val ∧
    (s.slots[l.resource.slot]).state = .ready n cls ∧ c.val < n.toNat ∧
    (l.resource.channel = none ∨ l.resource.channel = some c)

/-- This deadline event has come due (R7, R31, R57, R76, R133, R161). -/
def DueNow (s : State) : Instr → Prop
  | .settlingDeadline slot => ∃ d ≤ s.now, (s.slots[slot]).state = .settling d
  | .leaseExpiry h => ∃ l ∈ s.lm.leases, l.handle = h ∧ l.expiry ≤ s.now
  | .graceDeadline g => ∃ l ∈ s.lm.leases, ∃ d ≤ s.now, l.state = .recalled d g
  | .waitDeadline n => ∃ w ∈ s.lm.waits, w.arrival = n ∧ w.deadline ≤ s.now
  | .tackExpiry => ∃ a, s.delivery.attempt = some a ∧ ∃ d ≤ s.now, a.deadline = some d
  | .silenceExpiry => ∃ c, s.bp.cycle = some c ∧ c.silence ≤ s.now
  | _ => False

/-- Is the command a deadline of the part's own? Only these let its clock run on (assumption 3). -/
def isDeadline : Instr → Bool
  | .settlingDeadline _ | .leaseExpiry _ | .graceDeadline _ | .waitDeadline _ | .tackExpiry | .silenceExpiry => true
  | _ => false

/-! ### Closing, clearing and the round-robin -/

/-- What the close of a session makes of the part while nothing is in transmission (R92 steps 1 to 7): its leases and
waits go, one walk runs, its queued access goes and its cycle is marked, its bookings, attempt, waiting responses and
record go. -/
def State.closed (h : Addr) (s : State) : State :=
  let w := ({ s with lm := { s.lm with leases := s.lm.leases.filter (fun l => decide (l.holder ≠ h)),
                                       waits := s.lm.waits.filter (fun w => decide (w.session ≠ h)) } }).walk
  { w with
    bp := { s.bp with
      queue := s.bp.queue.filter (fun e => decide (e.session ≠ h)),
      cycle := s.bp.cycle.map (fun c =>
        match c.kind with
        | .access k slot ch op reg d => { c with kind := .access k slot ch op reg (d || decide (k = h)) }
        | .identify _ => c) },
    bookings := s.bookings.filter (fun b => decide (b.session ≠ h)),
    delivery := { s.delivery with attempt := s.delivery.attempt.filter (fun a => decide (a.host ≠ h)) },
    link := { s.link with
      responses := s.link.responses.filter (fun r => !(decide (r.host = h) && decide (r.owner = .session))) },
    sessions := w.sessions.filter (fun x => decide (x.host ≠ h)) }

/-- What a link clear makes of the part, the address switches reading `sw` (R119, R172): the Slot Directory, the
configuration, the service switch, the token counter, the pending identifications and an identification cycle stay. -/
def State.cleared (sw : Switches) (s : State) : State :=
  { s with
    link := { receive := .idle, resetLine := s.link.resetLine, tx := none, responses := [] },
    sessions := [],
    lm := { leases := [], waits := [], tokenCounter := s.lm.tokenCounter, arrivalCounter := 0 },
    bp := { s.bp with
      queue := [],
      cycle := s.bp.cycle.map (fun c =>
        match c.kind with
        | .access k slot ch op reg _ => { c with kind := .access k slot ch op reg true }
        | .identify _ => c) },
    bookings := [],
    delivery := { attempt := none, pointer := none },
    panel := { config := s.panel.config, nodeAddress := sw.node, managerAddress := sw.manager,
               service := s.panel.service, switches := sw, clearCommitted := false } }

/-- The bytes on the pair of a frame of the part (R169, R175): the delimiter, six header bytes, the payload, and the CRC
over header and payload, most significant byte first. -/
def frameOnPair (dest node : Addr) (frameKind seq kind : Byte) (payload : List Byte) : List Byte :=
  let body := [dest.setWidth 8, node.setWidth 8, frameKind, seq, kind, BitVec.ofNat 8 payload.length] ++ payload
  0xC3 :: body ++ [(crc16 body).extractLsb' 8 8, (crc16 body).extractLsb' 0 8]

/-- How many addresses the round-robin passes before it considers this one: it starts at the first address above the
pointer and wraps from 15 to 1 (R159). -/
def turnsBefore (pointer : Option Addr) (h : Addr) : Nat :=
  (h.toNat + 14 - (pointer.map BitVec.toNat).getD 0) % 15

/-- This host's session is DELIVERING and has something to send (R159). -/
def HasTurn (s : State) (h : Addr) : Prop :=
  ∃ x, s.session? h = some x ∧ x.delivery = .delivering ∧ x.out.entries ≠ []

/-- The LOST flag that an entry is sent with, and the marker after its transmission has started (R158). -/
def Entry.sent (m : Marker) (e : Entry) : Entry × Marker :=
  match e.body with
  | .notice n none => ({ e with body := .notice n (some (decide (m = .set))) }, if m = .set then .reported else m)
  | _ => (e, m)

/-- The sessions of the other hosts have the same records. -/
def OthersSame (h : Addr) (s t : State) : Prop := ∀ k, k ≠ h → t.session? k = s.session? k

/-! ### The laws of the records -/

/-- Any two leases whose resources overlap are both SHARED (R27). -/
def LeasesCompatible (s : State) : Prop :=
  s.lm.leases.Pairwise (fun a b => a.hold.compatible b.hold = true)

/-- No two live leases have the same handle (R19). -/
def HandlesDistinct (s : State) : Prop := (s.lm.leases.map Lease.handle).Nodup

/-- No two leases carry the same token, and neither a lease nor the counter holds 0 (R25, R26). -/
structure TokensDistinct (s : State) : Prop where
  nodup : (s.lm.leases.map Lease.token).Nodup
  nonzero : ∀ l ∈ s.lm.leases, l.token ≠ 0
  counter : s.lm.tokenCounter ≠ 0

/-- Every lease and every wait record names a READY slot and, for channel scope, a channel below its count (R28,
R48). -/
structure ResourcesValid (s : State) : Prop where
  leases : ∀ l ∈ s.lm.leases, l.resource.valid s.slots = true
  waits : ∀ w ∈ s.lm.waits, w.resource.valid s.slots = true

/-- The term of every lease and of every wait record is 1 to max term (R29, R56). -/
structure TermLaw (s : State) : Prop where
  leases : ∀ l ∈ s.lm.leases, TermOk s l.term
  waits : ∀ w ∈ s.lm.waits, TermOk s w.term

/-- In pool order every urgent record stands before every normal record (R49). -/
def UrgentFirst (s : State) : Prop := s.lm.waits.Pairwise (fun a b => b.urgent = true → a.urgent = true)

/-- At most 8 sessions, at most one for each host address 1 to 15 (R84). -/
structure SessionsDistinct (s : State) : Prop where
  nodup : (s.sessions.map Session.host).Nodup
  size : s.sessions.length ≤ Config.maxSessions
  nonzero : ∀ x ∈ s.sessions, x.host ≠ 0

/-- Every session has the class that the sampled manager address gives its host (R85). -/
def ClassLaw (s : State) : Prop := ∀ x ∈ s.sessions, x.cls = s.panel.classOf x.host

/-- Every lease, wait record, booking and queued access belongs to a session that is open (R93). Outbound entries
stand in the session records. -/
structure RecordsOwned (s : State) : Prop where
  leases : ∀ l ∈ s.lm.leases, (s.session? l.holder).isSome = true
  waits : ∀ w ∈ s.lm.waits, (s.session? w.session).isSome = true
  bookings : ∀ b ∈ s.bookings, (s.session? b.session).isSome = true
  queue : ∀ e ∈ s.bp.queue, (s.session? e.session).isSome = true

/-- The tags of a session's completions that are not yet acknowledged. -/
def OutboundQueue.completionTags (q : OutboundQueue) : List Tag :=
  q.entries.filterMap (fun e =>
    match e.body with
    | .completion tag _ => some tag
    | .notice _ _ => none)

/-- The tags of a session's wait records. -/
def State.waitTags (s : State) (h : Addr) : List Tag :=
  (s.lm.waits.filter (fun w => decide (w.session = h))).map Wait.tag

/-- For every session: its wait records and unacknowledged completions carry exactly its outstanding tags, which are
distinct and at most 4 (R63). -/
def TagLaw (s : State) : Prop :=
  ∀ x ∈ s.sessions,
    x.tags.Perm (s.waitTags x.host ++ x.out.completionTags) ∧ x.tags.Nodup ∧ x.tags.length ≤ Config.maxTags

/-- The Wait Pool holds no two records with the same session and tag (R49). -/
def WaitsDistinct (s : State) : Prop := (s.lm.waits.map (fun w => (w.session, w.tag))).Nodup

/-- The Booking Table holds at most one booking for each pair of session and slot (R142). -/
def BookingsDistinct (s : State) : Prop := (s.bookings.map (fun b => (b.session, b.slot))).Nodup

/-- Every Outbound Queue holds at most 8 notices and at most one undelivered ATTENTION entry for each slot, and no two
of its entries carry the same number (R147, R155, R156). -/
structure QueueLaw (s : State) : Prop where
  notices : ∀ x ∈ s.sessions, x.out.notices ≤ Config.maxNotices
  numbers : ∀ x ∈ s.sessions, (x.out.entries.map Entry.seq).Nodup
  attention : ∀ x ∈ s.sessions, ∀ slot : SlotNo,
    x.out.entries.countP (fun e => e.undelivered (s.flying x.host) && e.isAttention slot) ≤ 1

/-- The entry in flight, if any, is the head of the queue of an open session (R159, R162). -/
def HeadInFlight (s : State) : Prop :=
  ∀ a, s.delivery.attempt = some a →
    ∃ x, s.session? a.host = some x ∧ headNumber x.out.entries = some a.seq

/-- An entry that was lost to contention and waits to be sent again is the head of its queue, and is not in flight (R159,
R160). -/
def ContendedLaw (s : State) : Prop :=
  ∀ h x n, s.session? h = some x → x.out.contended = some n →
    headNumber x.out.entries = some n ∧ s.flying h ≠ some n

/-- Is the cycle in flight an ACCESS? -/
def Cycle.isAccess (c : Cycle) : Bool :=
  match c.kind with
  | .access _ _ _ _ _ _ => true
  | .identify _ => false

/-- A guard is set exactly while an ACCESS cycle is in flight (R132, R134), and no claimant waits while the backplane is
free (R128). -/
structure BackplaneLaw (s : State) : Prop where
  guarded : s.bp.guardHold.isSome = (s.bp.cycle.map Cycle.isAccess).getD false
  served : s.bp.cycle = none → s.bp.queue = [] ∧ s.bp.pendingIds = []

/-- While a guard is set, every lease is compatible with it, but for the lease it was copied from (R132): a lease of the
cycle's own session that claims the very resource and mode of the guard, and at most one such lease when the guard is
EXCLUSIVE. -/
structure GuardLaw (s : State) : Prop where
  agrees : ∀ g, s.bp.guardHold = some g → ∀ l ∈ s.lm.leases,
    g.compatible l.hold = true ∨ (l.hold = g ∧ ∃ c, s.bp.cycle = some c ∧ c.kind.session? = some l.holder)
  single : ∀ g, s.bp.guardHold = some g → g.mode = .exclusive →
    s.lm.leases.countP (fun l => decide (l.hold = g)) ≤ 1

/-- The lease permits this use of a channel (R126 steps 3 to 5, R131): it is on the slot, its resource contains the
channel, and it is EXCLUSIVE if the operation is a WRITE. -/
structure Permits (s : State) (l : Lease) (slot : SlotNo) (channel : ChannelNo) (op : Operation) : Prop where
  slot_eq : l.resource.slot = slot
  contains : l.resource.contains (s.slots[slot]).state channel = true
  writes : op.writes = true → l.mode = .exclusive

/-- The token of every lease and of every queued access is one that the counter has passed (R26); and a live lease that
a queued access names permits it, as at its arrival (R126, R131). -/
structure AccessLaw (s : State) : Prop where
  leases : ∀ l ∈ s.lm.leases, l.token.toNat < s.lm.tokenCounter.toNat
  queue : ∀ e ∈ s.bp.queue, e.token.toNat < s.lm.tokenCounter.toNat
  permitted : ∀ e ∈ s.bp.queue, ∀ l ∈ s.lm.leases,
    l.handle = e.handle → l.token = e.token → l.holder = e.session → Permits s l e.slot e.channel e.op

/-- Exactly the slots in IDENTIFYING await or undergo identification, each at most once (R7, R129, R130). -/
structure IdentificationLaw (s : State) : Prop where
  ascending : s.bp.pendingIds.Pairwise (fun a b => a < b)
  once : ∀ slot t, s.bp.cycle = some { kind := .identify slot, silence := t } → slot ∉ s.bp.pendingIds
  exact_ : ∀ slot : SlotNo, (s.slots[slot]).state = .identifying ↔
    (slot ∈ s.bp.pendingIds ∨ ∃ t, s.bp.cycle = some { kind := .identify slot, silence := t })

/-- A slot is EMPTY exactly while its presence is released, and a READY slot has 1 to 4 channels (R5, R8, R11). -/
def SlotLaw (s : State) : Prop :=
  ∀ slot : SlotNo, ((s.slots[slot]).state = .empty ↔ (s.slots[slot]).presence = false) ∧
    ∀ n c, (s.slots[slot]).state = .ready n c → 1 ≤ n.toNat ∧ n.toNat ≤ 4

/-- Every field of the configuration record is within its range (R115). -/
def ConfigLaw (s : State) : Prop := s.panel.config.firstBad = none

/-- How many things stand for a request of this host that is in flight: a queued access, an ACCESS cycle whose result
is not to be discarded, and a response whose end ends the in-flight state, waiting or in transmission (R97). -/
def State.carriers (s : State) (h : Addr) : Nat :=
  s.bp.queue.countP (fun e => decide (e.session = h))
  + (match s.bp.cycle with
     | some { kind := .access k _ _ _ _ false, .. } => if k = h then 1 else 0
     | _ => 0)
  + s.link.responses.countP (fun r => r.endsFlight && decide (r.host = h))
  + (match s.link.tx with
     | some { item := .response r, .. } => if r.endsFlight = true ∧ r.host = h then 1 else 0
     | _ => 0)

/-- A session has a request in flight exactly while one thing stands for it, and at most one does (R97, R127). -/
def FlightLaw (s : State) : Prop :=
  ∀ h, s.carriers h =
    match s.session? h with
    | some x => if x.inFlight then 1 else 0
    | none => 0

/-- Arrival numbers have come from the arrival counter, rise within the urgent and within the normal records, and do not
repeat (R49); the leases of one recall group share one grace deadline (R70, assumption 11). -/
structure ArrivalLaw (s : State) : Prop where
  known : ∀ w ∈ s.lm.waits, w.arrival ≤ s.lm.arrivalCounter
  rising : s.lm.waits.Pairwise (fun a b => a.urgent = b.urgent → a.arrival < b.arrival)
  distinct : (s.lm.waits.map Wait.arrival).Nodup
  groups : ∀ l ∈ s.lm.leases, ∀ d g, l.state = .recalled d g →
    g ≤ s.lm.arrivalCounter ∧ ∀ k ∈ s.lm.leases, ∀ d', k.state = .recalled d' g → d' = d

/-- While the part transmits it receives nothing (R167); an attempt whose wait has not started is the entry in
transmission, and an entry of an open session in transmission is the attempt (R155, R161); at most one response of the
second group waits for each host (R159). -/
structure TransmissionLaw (s : State) : Prop where
  deaf : s.link.tx ≠ none → s.link.receive = .idle
  sent : ∀ a, s.delivery.attempt = some a → a.deadline = none →
    ∃ wire, s.link.tx = some { item := .entry a.host a.seq true, wire }
  attempted : ∀ h n wire, s.link.tx = some { item := .entry h n true, wire } →
    ∃ a, s.delivery.attempt = some a ∧ a.host = h ∧ a.seq = n ∧ a.deadline = none
  single : s.link.responses.Pairwise (fun a b => a.taken = false → b.taken = false → a.host ≠ b.host)

/-- While the part is unaddressed (R173) or the link-reset condition is ASSERTED (R171), it holds no session, and no
response waits or is in transmission; while ASSERTED nothing is received. -/
structure SilentLaw (s : State) : Prop where
  unaddressed : s.panel.nodeAddress = 0 → s.sessions = [] ∧ s.link.responses = [] ∧ s.link.tx = none
  asserted : s.link.resetLine = .asserted →
    s.sessions = [] ∧ s.link.responses = [] ∧ s.link.tx = none ∧ s.link.receive = .idle

end Sys2Proof.Machine
end

