-- ==== Sys2Proof/Certificates/Slice0/Obligations.lean ====
section
/-! DEFINITION. The statements about the part, one proposition each. A conclusion of the form `exec c s = .next t` says
that the command completes, what it changes (the fields that `t` writes out) and that nothing else changes. -/

open Sys2Proof Sys2Proof.Machine

/-! ### Steps, power-on and reset -/

/-- A step takes the command at the front of the queue and carries it out with the queue's rest. -/
def Obligations.StepTakesFront : Prop :=
  ∀ (s : State) (c : Instr) (rest : List Instr), s.pending = c :: rest → step s = exec c { s with pending := rest }

/-- With no command waiting, a step lets one microsecond pass, or puts one deadline event that has come due into the
queue: the model's choice (assumptions 2 and 4). -/
def Obligations.IdleStep : Prop :=
  ∀ s : State, s.pending = [] →
    ((∀ e, ¬ DueNow s e) → step s = .next { s with now := s.now + 1 }) ∧
    ((∃ e, DueNow s e) → ∃ e, DueNow s e ∧ step s = .next { s with pending := [e] })

/-- Every command completes in every state and leaves the queue of commands alone; it never sets the clock back, and only
a deadline command moves it. The clock, and what moves it, are the model's choice (assumptions 2 and 3). -/
def Obligations.EveryCommandCompletes : Prop :=
  ∀ (c : Instr) (s : State), ∃ t, exec c s = .next t ∧ t.pending = s.pending ∧ s.now ≤ t.now ∧
    (isDeadline c = false → t.now = s.now)

/-- POWER_ON gives every record its power-on value, the lines and switches as they stand; and the state after reset is
that state for the line levels of assumption 1 (the model's choice). -/
def Obligations.PowerOnValues : Prop :=
  (∀ (p : Pins) (s : State), exec (.powerOn p) s = .next
    { pending := s.pending,
      now := s.now,
      link := { receive := .idle, resetLine := if p.resetLow then .asserted else .released, tx := none,
                responses := [] },
      sessions := [],
      lm := { leases := [], waits := [], tokenCounter := 1, arrivalCounter := 0 },
      bp := { queue := [], cycle := none, guardHold := none, pendingIds := [] },
      slots := Vector.ofFn (fun i =>
        { state := if p.presence[i] then .settling (s.now + 100000) else .empty,
          presence := p.presence[i], attention := p.attention[i] }),
      bookings := [],
      delivery := { attempt := none, pointer := none },
      panel := { config := { tGrace := 10, tAck := 10, attempts := 4, maxTerm := 600 },
                 nodeAddress := p.switches.node, managerAddress := p.switches.manager, service := p.service,
                 switches := p.switches, clearCommitted := false } }) ∧
  State.reset.pending = [] ∧ State.reset.now = 0 ∧
  exec (.powerOn { presence := Vector.replicate 16 false, attention := Vector.replicate 16 false, resetLow := false,
                   switches := { node := 2, manager := 1 }, service := .online }) State.reset = .next State.reset

/-- The laws of the records hold after reset, for the line levels and switch readings of assumption 1 (the model's
choice: the spec takes them from outside). -/
def Obligations.LawsHoldAtReset : Prop :=
  LeasesCompatible State.reset ∧ GuardLaw State.reset ∧ HandlesDistinct State.reset ∧ TokensDistinct State.reset ∧
  ResourcesValid State.reset ∧ UrgentFirst State.reset ∧ BookingsDistinct State.reset ∧ ConfigLaw State.reset ∧
  SessionsDistinct State.reset ∧ RecordsOwned State.reset ∧ TagLaw State.reset ∧ QueueLaw State.reset ∧
  WaitsDistinct State.reset ∧ HeadInFlight State.reset ∧ BackplaneLaw State.reset ∧ IdentificationLaw State.reset ∧
  SlotLaw State.reset ∧ FlightLaw State.reset ∧ SilentLaw State.reset ∧ ArrivalLaw State.reset ∧
  TransmissionLaw State.reset ∧ ClassLaw State.reset ∧ TermLaw State.reset ∧ AccessLaw State.reset ∧
  ContendedLaw State.reset

/-! ### The Slot Directory -/

/-- PRESENCE_RISE of an EMPTY slot (R6). -/
def Obligations.PresenceRiseSettles : Prop :=
  ∀ (s : State) (slot : SlotNo), (s.slots[slot]).state = .empty → (s.slots[slot]).presence = false →
    ∃ t, exec (.presenceRise slot) s = .next t ∧
      t = s.setSlot slot (fun r => { r with presence := true, state := .settling (s.now + 100000) }) ∧
      (∀ r : Resource, r.slot = slot → r.valid t.slots = false) ∧
      t.probePayload[8 + slot.val]? = some 0x10

/-- PRESENCE_DROP of a slot in SETTLING, FAULTED or IDENTIFYING: EMPTY; an awaited identification is withdrawn, and one
in flight ends without being applied, after which the arbiter chooses. -/
def Obligations.PresenceDropWithoutVacate : Prop :=
  ∀ (s : State) (slot : SlotNo), (s.slots[slot]).presence = true →
    let u := s.setSlot slot (fun r => { r with presence := false, state := .empty })
    let ids := s.bp.pendingIds.filter (fun i => decide (i ≠ slot))
    ((∃ d, (s.slots[slot]).state = .settling d) ∨ (s.slots[slot]).state = .faulted →
      exec (.presenceDrop slot) s = .next u) ∧
    ((s.slots[slot]).state = .identifying → s.cycleOn slot = false →
      exec (.presenceDrop slot) s = .next { u with bp := { s.bp with pendingIds := ids } }) ∧
    (∀ d, (s.slots[slot]).state = .identifying → s.bp.cycle = some { kind := .identify slot, silence := d } →
      exec (.presenceDrop slot) s = .next
        ({ u with bp := { s.bp with pendingIds := ids, cycle := none, guardHold := none } }).arbitrate)

/-- PRESENCE_DROP of a READY slot, the vacate: the slot is EMPTY, its leases are retired with VACATED notices in grant
order, its waits completed VACATED in pool order, one walk runs; an ACCESS cycle on the slot ends SILENT, is answered
unless it is to be discarded, and its guard is cleared, with a walk and the arbiter's choice. That the Lease Manager takes
the vacate before the Sequencer is the model's choice of order (assumption 18); the spec allows either: "The two blocks
touch different records, so the result is the same whichever takes the vacate first." -/
def Obligations.VacateEmptiesSlot : Prop :=
  ∀ (s : State) (slot : SlotNo) (n : BitVec 4) (cls : Byte), (s.slots[slot]).state = .ready n cls →
    (s.slots[slot]).presence = true → HandlesDistinct s → WaitsDistinct s →
    let told :=
      (s.lm.waits.filter (fun w => decide (w.resource.slot = slot))).foldl
        (fun (v : State) (w : Wait) => v.handCompletion w.session w.tag .vacated)
        ((s.lm.leases.filter (fun l => decide (l.resource.slot = slot))).foldl
          (fun (v : State) (l : Lease) => v.handNotice l.holder (l.noticeOf .vacated)) s)
    let u := ({ s.setSlot slot (fun r => { r with presence := false, state := .empty }) with
      sessions := told.sessions,
      lm := { s.lm with leases := s.lm.leases.filter (fun l => decide (l.resource.slot ≠ slot)),
                        waits := s.lm.waits.filter (fun w => decide (w.resource.slot ≠ slot)) } }).walk
    (s.cycleOn slot = false → exec (.presenceDrop slot) s = .next u) ∧
    (∀ h ch op reg discard d, s.bp.cycle = some { kind := .access h slot ch op reg discard, silence := d } →
      let v := if discard then u else u.answer h .done [0x02]
      exec (.presenceDrop slot) s = .next
        ({ v with bp := { v.bp with cycle := none, guardHold := none } }).walk.arbitrate)

/-- SETTLING_DEADLINE of a slot in SETTLING: IDENTIFYING, it joins the pending identification set, and the arbiter
chooses; in any other state nothing happens. That the clock runs on to the deadline is the model's choice (assumption
3). -/
def Obligations.SettlingDeadlineIdentifies : Prop :=
  ∀ (s : State) (slot : SlotNo),
    (∀ d, (s.slots[slot]).state = .settling d →
      exec (.settlingDeadline slot) s = .next
        ({ s.setSlot slot (fun r => { r with state := .identifying }) with
            now := max s.now d,
            bp := { s.bp with pendingIds := insertSlot slot s.bp.pendingIds } }).arbitrate) ∧
    ((∀ d, (s.slots[slot]).state ≠ .settling d) → exec (.settlingDeadline slot) s = .next s)

/-- ATTENTION_RISE and ATTENTION_FALL: recorded in every state; a rise of a READY slot fires every ARMED booking on
it; a fall is reported to no one; a rise to the level already recorded is no event. -/
def Obligations.AttentionLineRecorded : Prop :=
  ∀ (s : State) (slot : SlotNo),
    let u := s.setSlot slot (fun r => { r with attention := true })
    ((s.slots[slot]).attention = false → (s.slots[slot]).state.isReady = false →
      exec (.attentionRise slot) s = .next u) ∧
    ((s.slots[slot]).attention = false → (s.slots[slot]).state.isReady = true → BookingsDistinct s →
      ∃ t, exec (.attentionRise slot) s = .next t ∧ Fired (fun _ => true) slot u t) ∧
    ((s.slots[slot]).attention = true → exec (.attentionRise slot) s = .next s) ∧
    exec (.attentionFall slot) s = .next (s.setSlot slot (fun r => { r with attention := false }))

/-! ### The Backplane Sequencer -/

/-- IDENTIFICATION_START and ACCESS_START_CHECK: with the backplane free, the lowest pending identification starts
without a guard; with none pending, the head access is start-checked: under a live lease its cycle starts with the guard
set, otherwise it is answered OFFLINE, ABSENT or STALE and the arbiter chooses again; on a busy backplane, or with no
claimant, nothing happens. The arbiter's choice at every other event is the one that the first row makes, followed by the one
that the second makes in the state left. An identification presents a READ of register 255 of channel 0, an ACCESS its own fields. That
the two rows are the choice that the arbiter makes inside other events is the model's reading (assumption 5): the first
three clauses speak of states that no run reaches (`BackplaneLaw.served`). The lowest pending identification is the head
of the set, which every step keeps ascending (`IdentificationLaw.ascending`). -/
def Obligations.ArbiterStartsCycles : Prop :=
  ∀ s : State, HandlesDistinct s →
    (∀ slot rest, s.bp.cycle = none → s.bp.pendingIds = slot :: rest →
      exec .identificationStart s = .next { s with bp := { s.bp with
        pendingIds := rest, cycle := some { kind := .identify slot, silence := s.now + 4 } } }) ∧
    (∀ e rest l, s.bp.cycle = none → s.bp.pendingIds = [] → s.bp.queue = e :: rest →
      s.panel.service = .online → (s.slots[e.slot]).state.isReady = true →
      l ∈ s.lm.leases → l.handle = e.handle → l.token = e.token → l.holder = e.session →
      exec .accessStartCheck s = .next { s with bp := { s.bp with
        queue := rest, guardHold := some l.hold,
        cycle := some { kind := .access e.session e.slot e.channel e.op e.register false,
                        silence := s.now + 4 } } }) ∧
    (∀ e rest st, s.bp.cycle = none → s.bp.pendingIds = [] → s.bp.queue = e :: rest →
      ((s.panel.service = .service ∧ st = .offline) ∨
       (s.panel.service = .online ∧ (s.slots[e.slot]).state.isReady = false ∧ st = .absent) ∨
       (s.panel.service = .online ∧ (s.slots[e.slot]).state.isReady = true ∧ st = .stale ∧
        ∀ l ∈ s.lm.leases, ¬ (l.handle = e.handle ∧ l.token = e.token ∧ l.holder = e.session))) →
      exec .accessStartCheck s =
        exec .accessStartCheck (({ s with bp := { s.bp with queue := rest } }).answer e.session st [])) ∧
    (s.bp.cycle ≠ none ∨ s.bp.pendingIds = [] → exec .identificationStart s = .next s) ∧
    (s.bp.cycle ≠ none ∨ s.bp.pendingIds ≠ [] ∨ s.bp.queue = [] → exec .accessStartCheck s = .next s) ∧
    (∀ u, exec .identificationStart s = .next u → exec .accessStartCheck u = .next s.arbitrate) ∧
    (s.bp.cycle = none → s.presented = none) ∧
    (∀ slot d, s.bp.cycle = some { kind := .identify slot, silence := d } →
      s.presented = some { slot, channel := 0, op := .read, register := 255 }) ∧
    (∀ h slot channel op register discard d,
      s.bp.cycle = some { kind := .access h slot channel op register discard, silence := d } →
      s.presented = some { slot, channel, op, register })

/-- MODULE_ANSWER and SILENCE_EXPIRY end the cycle in flight, and the arbiter chooses. An identification: READY with the
descriptor's channel count and class code for a count of 1 to 4, which reports a rise on a raised line; FAULTED for any
other count, a refusal or silence. An ACCESS: DONE with the outcome, and the word of an ACCEPTED READ, unless the result is
to be discarded; the guard is cleared and a walk runs. An answer from a slot without a cycle is ignored. That the clock
runs on to the end of tSILENCE is the model's choice (assumption 3). -/
def Obligations.CyclesEnd : Prop :=
  (∀ (s : State) (slot : SlotNo) (d : Instant), s.bp.cycle = some { kind := .identify slot, silence := d } →
    (s.slots[slot]).state = .identifying → BookingsDistinct s →
    let free := { s with bp := { s.bp with cycle := none, guardHold := none } }
    let faulted := free.setSlot slot (fun r => { r with state := .faulted })
    (∀ word : Word16,
      let n := word.extractLsb' 8 4
      let ready := free.setSlot slot (fun r => { r with state := .ready n (word.extractLsb' 0 8) })
      (1 ≤ n.toNat → n.toNat ≤ 4 → (s.slots[slot]).attention = false →
        exec (.moduleAnswer slot (.accept word)) s = .next ready.arbitrate) ∧
      (1 ≤ n.toNat → n.toNat ≤ 4 → (s.slots[slot]).attention = true →
        ∃ t, Fired (fun _ => true) slot ready t ∧
          exec (.moduleAnswer slot (.accept word)) s = .next t.arbitrate) ∧
      (n.toNat = 0 ∨ 4 < n.toNat → exec (.moduleAnswer slot (.accept word)) s = .next faulted.arbitrate)) ∧
    exec (.moduleAnswer slot .refuse) s = .next faulted.arbitrate ∧
    exec .silenceExpiry s = .next ({ faulted with now := max s.now d }).arbitrate) ∧
  (∀ (s : State) (h : Addr) (slot : SlotNo) (ch : ChannelNo) (op : Operation) (reg : Byte) (discard : Bool)
      (d : Instant),
    s.bp.cycle = some { kind := .access h slot ch op reg discard, silence := d } →
    let ended (u : State) (payload : List Byte) : State :=
      let v := if discard then u else u.answer h .done payload
      ({ v with bp := { v.bp with cycle := none, guardHold := none } }).walk.arbitrate
    (∀ word : Word16, exec (.moduleAnswer slot (.accept word)) s = .next
      (ended s (match op with | .read => 0x00 :: bytes16 word | .write _ => [0x00]))) ∧
    exec (.moduleAnswer slot .refuse) s = .next (ended s [0x01]) ∧
    exec .silenceExpiry s = .next (ended { s with now := max s.now d } [0x02])) ∧
  (∀ (s : State) (slot : SlotNo) (a : ModuleAnswer), s.cycleOn slot = false →
    exec (.moduleAnswer slot a) s = .next s) ∧
  (∀ s : State, s.bp.cycle = none → exec .silenceExpiry s = .next s)

/-- ACCESS at arrival: OFFLINE in SERVICE, STALE without a match, BAD_ACCESS for a channel not contained (field 2), a
WRITE under a SHARED lease (field 3) or to register 255 (field 4); else the entry joins the Access Queue with no response,
and the arbiter chooses: at once, if the backplane is free. -/
def Obligations.AccessArrives : Prop :=
  ∀ (s : State) (f : Frame) (x : Session) (a : AccessFields), NewRequest s Kind.access f x →
    f.payload = accessRequestPayload a → HandlesDistinct s →
    (s.panel.service = .service → exec (.access f) s = .next (s.deniedRequest Kind.access f (.status .offline))) ∧
    (s.panel.service = .online → (∀ l, ¬ Matches s (frameHost f) a.handle a.token l) →
      exec (.access f) s = .next (s.deniedRequest Kind.access f (.status .stale))) ∧
    (∀ l, s.panel.service = .online → Matches s (frameHost f) a.handle a.token l →
      (¬ Contained s l a.channel →
        exec (.access f) s = .next (s.deniedRequest Kind.access f (.fault .badAccess (some 2)))) ∧
      (∀ w, Contained s l a.channel → a.op = .write w → l.mode = .shared →
        exec (.access f) s = .next (s.deniedRequest Kind.access f (.fault .badAccess (some 3)))) ∧
      (∀ w, Contained s l a.channel → a.op = .write w → l.mode = .exclusive → a.register = 255 →
        exec (.access f) s = .next (s.deniedRequest Kind.access f (.fault .badAccess (some 4)))) ∧
      (∀ c : ChannelNo, Contained s l a.channel → a.channel.toNat = c.val →
        (a.op = .read ∨ (l.mode = .exclusive ∧ a.register ≠ 255)) →
        let u := s.taking Kind.access f
        let e : AccessEntry :=
          { session := frameHost f, handle := l.handle, token := l.token, channel := c, op := a.op,
            register := a.register, slot := l.resource.slot }
        exec (.access f) s = .next ({ u with bp := { s.bp with queue := s.bp.queue ++ [e] } }).arbitrate ∧
        (s.bp.cycle = none → s.bp.pendingIds = [] → s.bp.queue = [] →
          (s.slots[l.resource.slot]).state.isReady = true →
          exec (.access f) s = .next
            { u with bp := { s.bp with
              guardHold := some l.hold,
              cycle := some { kind := .access (frameHost f) l.resource.slot c a.op a.register false,
                              silence := s.now + 4 } } })))

/-! ### The Lease Manager -/

/-- ACQUIRE granted at arrival: a lease with the lowest free handle and the next token at the end of grant order, GRANTED
with handle, token and term, and no tag recorded. -/
def Obligations.AcquireGranted : Prop :=
  ∀ (s : State) (f : Frame) (x : Session) (a : AcquireFields) (r : Resource) (hd : Handle),
    NewRequest s Kind.acquire f x → f.payload = acquirePayload a → AcquirePasses s x a r →
    s.grantable s.lm.waits (a.hold r) = true → LowestFree s.lm.leases hd →
    exec (.acquire f) s = .next
      { s.answeredRequest Kind.acquire f .granted (handleByte hd :: bytes32 s.lm.nextToken ++ bytes16 a.term) with
        lm := { s.lm with
          leases := s.lm.leases ++
            [{ handle := hd, holder := frameHost f, resource := r, mode := a.mode, token := s.lm.nextToken,
               state := .held, term := a.term, expiry := s.now + a.term.toNat * 1000000 }],
          tokenCounter := if s.lm.nextToken = 0xFFFFFFFF then 1 else s.lm.nextToken + 1 } }

/-- ACQUIRE with wait limit 0 that is not granted at arrival (R46): CONFLICT when it is not grantable, FULL when it is and
no Lease Table record is free; nothing is recorded. CONFLICT means a conflict with a lease, the guard or a wait record. -/
def Obligations.AcquireRefused : Prop :=
  ∀ (s : State) (f : Frame) (x : Session) (a : AcquireFields) (r : Resource),
    NewRequest s Kind.acquire f x → f.payload = acquirePayload a → AcquirePasses s x a r → a.waitLimit = 0 →
    (s.grantable s.lm.waits (a.hold r) = false →
      exec (.acquire f) s = .next (s.answeredRequest Kind.acquire f .conflict [])) ∧
    (s.grantable s.lm.waits (a.hold r) = true → TableFull s.lm.leases →
      exec (.acquire f) s = .next (s.answeredRequest Kind.acquire f .full [])) ∧
    (s.grantable s.lm.waits (a.hold r) = false ↔
      (∃ l ∈ s.lm.leases, (a.hold r).compatible l.hold = false) ∨
      (∃ g, s.bp.guardHold = some g ∧ (a.hold r).compatible g = false) ∨
      (∃ w ∈ s.lm.waits, (a.hold r).compatible w.hold = false)) ∧
    (TableFull s.lm.leases → HandlesDistinct s → s.lm.leases.length = 64)

/-- ACQUIRE turned away: the first test of R44 that fails gives the answer; a request that would have to wait fails on a
tag in use or on 4 outstanding tags. No table changes. -/
def Obligations.AcquireDenied : Prop :=
  ∀ (s : State) (f : Frame) (x : Session) (a : AcquireFields),
    NewRequest s Kind.acquire f x → f.payload = acquirePayload a →
    let denied (d : Denial) : Prop := exec (.acquire f) s = .next (s.deniedRequest Kind.acquire f d)
    (s.panel.service = .service → denied (.status .offline)) ∧
    (∀ d, s.panel.service = .online → resourceCheck s.slots 1 2 a.slot a.channel = .error d → denied d) ∧
    (∀ r, s.panel.service = .online → resourceCheck s.slots 1 2 a.slot a.channel = .ok r →
      (¬ TermOk s a.term → denied (.fault .badTerm (some 4))) ∧
      (TermOk s a.term → a.urgent = true → x.cls = .normal → denied (.fault .notPermitted (some 6))) ∧
      (TermOk s a.term → a.urgent = true → x.cls = .manager → a.waitLimit = 0 →
        denied (.fault .badTerm (some 5)))) ∧
    (∀ r, AcquirePasses s x a r → a.waitLimit ≠ 0 →
      s.grantable s.lm.waits (a.hold r) = false ∨ TableFull s.lm.leases →
      (a.tag ∈ x.tags → denied (.fault .tagInUse (some 0))) ∧
      (a.tag ∉ x.tags → 4 ≤ x.tags.length → denied (.fault .tooManyDeferred none)))

/-- ACQUIRE deferred: a wait record with the next arrival number, after the last urgent record when it is urgent and at
the end of the pool otherwise; its tag is outstanding; DEFERRED with the tag. An urgent one makes the recall as the last
part: every HELD lease in conflict becomes RECALLED with one grace deadline, and its holder is handed a RECALL notice, in
grant order. The recall's group is named by the arrival number (the model's choice, assumption 11). -/
def Obligations.AcquireDeferred : Prop :=
  ∀ (s : State) (f : Frame) (x : Session) (a : AcquireFields) (r : Resource),
    NewRequest s Kind.acquire f x → f.payload = acquirePayload a → AcquirePasses s x a r →
    s.grantable s.lm.waits (a.hold r) = false ∨ TableFull s.lm.leases →
    a.waitLimit ≠ 0 → a.tag ∉ x.tags → x.tags.length < 4 →
    let w : Wait :=
      { session := frameHost f, tag := a.tag, resource := r, mode := a.mode, term := a.term, urgent := a.urgent,
        deadline := s.now + a.waitLimit.toNat * 1000000, arrival := s.lm.arrivalCounter + 1 }
    let u := { s.answeredRequestWith (fun y => { y with tags := y.tags ++ [a.tag] })
                  Kind.acquire f .deferred [tagByte a.tag] with
      lm := { s.lm with
        waits := if a.urgent then s.lm.waits.takeWhile Wait.urgent ++ w :: s.lm.waits.dropWhile Wait.urgent
                 else s.lm.waits ++ [w],
        arrivalCounter := s.lm.arrivalCounter + 1 } }
    let hit (l : Lease) : Bool := decide (l.state = .held) && !(a.hold r).compatible l.hold
    (a.urgent = false → exec (.acquire f) s = .next u) ∧
    (a.urgent = true → exec (.acquire f) s = .next
      { u with
        sessions := ((s.lm.leases.filter hit).foldl
          (fun (v : State) (l : Lease) => v.handNotice l.holder (l.noticeOf .recall)) u).sessions,
        lm := { u.lm with leases := s.lm.leases.map (fun l =>
          if hit l then
            { l with state := .recalled (s.now + s.panel.config.tGrace.toNat * 1000000) (s.lm.arrivalCounter + 1) }
          else l) } })

/-- RENEW: STALE without a match; RECALLED with the whole seconds to grace, whatever the term; BAD_TERM (field 2); else
the new term and expiry, and DONE with the term. -/
def Obligations.RenewAnswered : Prop :=
  ∀ (s : State) (f : Frame) (x : Session) (handle : Byte) (token : Token) (term : Word16),
    NewRequest s Kind.renew f x → f.payload = handle :: bytes32 token ++ bytes16 term → HandlesDistinct s →
    ((∀ l, ¬ Matches s (frameHost f) handle token l) →
      exec (.renew f) s = .next (s.answeredRequest Kind.renew f .stale [])) ∧
    (∀ l, Matches s (frameHost f) handle token l →
      (∀ d g, l.state = .recalled d g →
        exec (.renew f) s = .next
          (s.answeredRequest Kind.renew f .recalled [BitVec.ofNat 8 ((d - s.now) / 1000000)])) ∧
      (l.state = .held → ¬ TermOk s term →
        exec (.renew f) s = .next (s.deniedRequest Kind.renew f (.fault .badTerm (some 2)))) ∧
      (l.state = .held → TermOk s term →
        exec (.renew f) s = .next { s.answeredRequest Kind.renew f .done (bytes16 term) with
          lm := { s.lm with leases := s.lm.leases.map (fun k =>
            if k.handle = l.handle then { k with term := term, expiry := s.now + term.toNat * 1000000 }
            else k) } }))

/-- RELEASE: STALE without a match, and nothing changes; else the lease leaves the table, DONE, and a walk runs, in
both lease states. -/
def Obligations.ReleaseAnswered : Prop :=
  ∀ (s : State) (f : Frame) (x : Session) (handle : Byte) (token : Token),
    NewRequest s Kind.release f x → f.payload = handle :: bytes32 token → HandlesDistinct s →
    ((∀ l, ¬ Matches s (frameHost f) handle token l) →
      exec (.release f) s = .next (s.answeredRequest Kind.release f .stale [])) ∧
    (∀ l, Matches s (frameHost f) handle token l →
      exec (.release f) s = .next ({ s.answeredRequest Kind.release f .done [] with
        lm := { s.lm with leases := s.lm.leases.filter (fun k => decide (k.handle ≠ l.handle)) } }).walk)

/-- CANCEL: DONE for a waiting tag, whose record and tag go, with a walk; LATE for a tag whose completion is formed; STALE
for any other. -/
def Obligations.CancelAnswered : Prop :=
  ∀ (s : State) (f : Frame) (x : Session) (tag : Tag),
    NewRequest s Kind.cancel f x → f.payload = [tagByte tag] →
    ((∃ w ∈ s.lm.waits, w.session = frameHost f ∧ w.tag = tag) →
      exec (.cancel f) s = .next
        ({ s.answeredRequestWith (fun y => { y with tags := y.tags.filter (fun k => decide (k ≠ tag)) })
              Kind.cancel f .done [] with
          lm := { s.lm with waits := s.lm.waits.filter (fun w =>
            !(decide (w.session = frameHost f) && decide (w.tag = tag))) } }).walk) ∧
    ((∀ w ∈ s.lm.waits, ¬ (w.session = frameHost f ∧ w.tag = tag)) →
      (tag ∈ x.tags → exec (.cancel f) s = .next (s.answeredRequest Kind.cancel f .late [])) ∧
      (tag ∉ x.tags → exec (.cancel f) s = .next (s.answeredRequest Kind.cancel f .stale [])))

/-- Overlap, containment and compatibility by slot, channel and mode: no resource contains a channel at or above the count
of its slot. And the resource check: the slot field, the channel
field, the slot READY, the channel below its count, in this order. That a request in which slot and channel are both out
of range is answered with the slot's index is the model's reading (assumption 19). -/
def Obligations.ResourceTablesAndCheck : Prop :=
  (∀ a b : Resource, a.overlaps b = true ↔
    a.slot = b.slot ∧ (a.channel = b.channel ∨ a.channel = none ∨ b.channel = none)) ∧
  (∀ a b : Hold, a.compatible b = true ↔
    ¬ (a.resource.slot = b.resource.slot ∧ (a.resource.channel = b.resource.channel ∨ a.resource.channel = none ∨
      b.resource.channel = none)) ∨ (a.mode = .shared ∧ b.mode = .shared)) ∧
  (∀ (r : Resource) (st : SlotState) (c : ChannelNo), r.contains st c = true ↔
    ∃ n cls, st = .ready n cls ∧ c.val < n.toNat ∧ (r.channel = none ∨ r.channel = some c)) ∧
  ∀ (slots : Vector SlotRecord 16) (i j : FieldIndex) (b c : Byte),
    (16 ≤ b.toNat → resourceCheck slots i j b c = .error (.fault .badResource (some i))) ∧
    (∀ slot : SlotNo, b.toNat = slot.val →
      (4 ≤ c.toNat → c ≠ 0xFF → resourceCheck slots i j b c = .error (.fault .badResource (some j))) ∧
      (c.toNat < 4 ∨ c = 0xFF → (slots[slot]).state.isReady = false →
        resourceCheck slots i j b c = .error (.status .absent)) ∧
      (∀ n cls, (slots[slot]).state = .ready n cls →
        (c = 0xFF → resourceCheck slots i j b c = .ok { slot := slot, channel := none }) ∧
        (∀ ch : ChannelNo, c.toNat = ch.val → n.toNat ≤ ch.val →
          resourceCheck slots i j b c = .error (.fault .badResource (some j))) ∧
        (∀ ch : ChannelNo, c.toNat = ch.val → ch.val < n.toNat →
          resourceCheck slots i j b c = .ok { slot := slot, channel := some ch })))

/-- QUERY: turned away by the resource check, or DONE with the counts of overlapping leases and waits, channel count and
class code, and 4 bytes for each of the first 16 overlapping leases in grant order; no table changes. -/
def Obligations.QueryAnswered : Prop :=
  ∀ (s : State) (f : Frame) (x : Session) (b c : Byte), NewRequest s Kind.query f x → f.payload = [b, c] →
    (∀ d, resourceCheck s.slots 0 1 b c = .error d →
      exec (.query f) s = .next (s.deniedRequest Kind.query f d)) ∧
    (∀ r n cls, resourceCheck s.slots 0 1 b c = .ok r → (s.slots[r.slot]).state = .ready n cls →
      let ls := s.lm.leases.filter (fun l => r.overlaps l.resource)
      let ws := s.lm.waits.filter (fun w => r.overlaps w.resource)
      let entry (l : Lease) : List Byte :=
        [BitVec.ofNat 8 (l.holder.toNat + (if l.mode = .exclusive then 16 else 0) +
          (if l.state = .held then 0 else 32))] ++
        bytes16 (BitVec.ofNat 16 ((l.expiry - s.now) / 1000000)) ++
        [match l.state with
          | .held => 0xFF
          | .recalled d _ => BitVec.ofNat 8 ((d - s.now) / 1000000)]
      exec (.query f) s = .next (s.answeredRequest Kind.query f .done
        ([BitVec.ofNat 8 ls.length, BitVec.ofNat 8 ws.length, n.setWidth 8, cls] ++ (ls.take 16).flatMap entry)))

/-- LEASE_EXPIRY, GRACE_DEADLINE and WAIT_DEADLINE: the lease is retired EXPIRED, the group's live leases REVOKED in grant
order, the wait completed TIMED_OUT, and one walk runs; where nothing is left that the deadline belongs to, nothing
happens. That the clock runs on to the deadline is the model's choice (assumption 3), and so is
the name of a group (assumption 11). -/
def Obligations.DeadlinesRetire : Prop :=
  ∀ s : State, HandlesDistinct s → WaitsDistinct s →
    (∀ l ∈ s.lm.leases, exec (.leaseExpiry l.handle) s = .next
      ((({ s with
            now := max s.now l.expiry,
            lm := { s.lm with leases := s.lm.leases.filter (fun k => decide (k.handle ≠ l.handle)) } }).handNotice
          l.holder (l.noticeOf .expired)).walk)) ∧
    (∀ h, (∀ l ∈ s.lm.leases, l.handle ≠ h) → exec (.leaseExpiry h) s = .next s) ∧
    (∀ g d, (∃ l ∈ s.lm.leases, l.state = .recalled d g) →
      (∀ l ∈ s.lm.leases, ∀ d', l.state = .recalled d' g → d' = d) →
      let member (l : Lease) : Bool := decide (l.state = .recalled d g)
      exec (.graceDeadline g) s = .next
        ({ s with
            now := max s.now d,
            sessions := ((s.lm.leases.filter member).foldl
              (fun (v : State) (l : Lease) => v.handNotice l.holder (l.noticeOf .revoked)) s).sessions,
            lm := { s.lm with leases := s.lm.leases.filter (fun l => !member l) } }).walk) ∧
    (∀ g, (∀ l ∈ s.lm.leases, ∀ d, l.state ≠ .recalled d g) → exec (.graceDeadline g) s = .next s) ∧
    (∀ w ∈ s.lm.waits, (∀ v ∈ s.lm.waits, v.arrival = w.arrival → v = w) →
      exec (.waitDeadline w.arrival) s = .next
        ((({ s with
              now := max s.now w.deadline,
              lm := { s.lm with waits := s.lm.waits.filter (fun v => decide (v ≠ w)) } }).handCompletion
            w.session w.tag .timedOut).walk)) ∧
    (∀ n, (∀ w ∈ s.lm.waits, w.arrival ≠ n) → exec (.waitDeadline n) s = .next s)

/-- A pass over the Wait Pool in pool order. The record visited is granted when it is grantable beside the records
passed over before it, the switch is ONLINE, its slot is READY and a Lease Table record is free: the lease of R23 with its
term from now, the record leaves the pool, and a GRANTED completion with its tag. Otherwise it stays in its place and counts
as an earlier wait for the records behind it. Grantable means compatible with every live lease, the guard and the earlier
waits. In SERVICE a walk changes nothing. -/
def Obligations.WalkGrantsInPoolOrder : Prop :=
  (∀ (s : State) (earlier : List Wait) (c : Hold), s.grantable earlier c = true ↔
    (∀ l ∈ s.lm.leases, c.compatible l.hold = true) ∧
    (∀ g, s.bp.guardHold = some g → c.compatible g = true) ∧ ∀ w ∈ earlier, c.compatible w.hold = true) ∧
  (∀ (s : State) (kept rest : List Wait) (w : Wait) (hd : Handle), s.panel.service = .online →
    (s.slots[w.resource.slot]).state.isReady = true → s.grantable kept w.hold = true → LowestFree s.lm.leases hd →
    let granted : State := { s with lm := { s.lm with
      leases := s.lm.leases ++
        [{ handle := hd, holder := w.session, resource := w.resource, mode := w.mode, token := s.lm.nextToken,
           state := .held, term := w.term, expiry := s.now + w.term.toNat * 1000000 }],
      tokenCounter := advanceToken s.lm.nextToken } }
    State.walkFrom kept (w :: rest) s =
      State.walkFrom kept rest (granted.handCompletion w.session w.tag (.granted hd s.lm.nextToken w.term))) ∧
  (∀ (s : State) (kept rest : List Wait) (w : Wait),
    s.panel.service = .service ∨ (s.slots[w.resource.slot]).state.isReady = false ∨
      s.grantable kept w.hold = false ∨ TableFull s.lm.leases →
    State.walkFrom kept (w :: rest) s = State.walkFrom (kept ++ [w]) rest s) ∧
  (∀ (s : State) (kept : List Wait), State.walkFrom kept [] s = { s with lm := { s.lm with waits := kept } }) ∧
  (∀ s : State, s.walk = State.walkFrom [] s.lm.waits s ∧ s.walk.lm.waits.Sublist s.lm.waits) ∧
  (∀ (s : State) (w : Wait) (rest : List Wait) (hd : Handle), s.lm.waits = w :: rest →
    s.panel.service = .online → (s.slots[w.resource.slot]).state.isReady = true →
    s.grantable [] w.hold = true → LowestFree s.lm.leases hd →
    let granted : State := { s with lm := { s.lm with
      leases := s.lm.leases ++
        [{ handle := hd, holder := w.session, resource := w.resource, mode := w.mode, token := s.lm.nextToken,
           state := .held, term := w.term, expiry := s.now + w.term.toNat * 1000000 }],
      waits := rest,
      tokenCounter := advanceToken s.lm.nextToken } }
    s.walk = (granted.handCompletion w.session w.tag (.granted hd s.lm.nextToken w.term)).walk) ∧
  (∀ s : State, s.panel.service = .service → s.walk = s)

/-- The token of a grant: the counter's value when no live lease carries it, and otherwise the first value after it that
none carries. It is not 0, no live lease carries it, and the counter goes from 4,294,967,295 to 1. -/
def Obligations.TokensFromCounter : Prop :=
  (∀ m : LeaseManager, (∀ l ∈ m.leases, l.token ≠ m.tokenCounter) → m.nextToken = m.tokenCounter) ∧
  (∀ m : LeaseManager, m.leases.length ≤ 64 → m.tokenCounter ≠ 0 →
    m.nextToken ≠ 0 ∧ (∀ l ∈ m.leases, l.token ≠ m.nextToken) ∧
    ∃ k ≤ m.leases.length, m.nextToken = advanceToken^[k] m.tokenCounter ∧
      ∀ j < k, ∃ l ∈ m.leases, l.token = advanceToken^[j] m.tokenCounter) ∧
  (∀ t : Token, advanceToken t = if t.toNat = 4294967295 then 1 else t + 1) ∧
  (∀ (s : State) (l : Lease), (s.addLease l).lm.tokenCounter = advanceToken l.token)

/-! ### The Session Manager -/

/-- OPEN: a new session with the values of R91, or FULL; for the last OPEN repeated, the stored DONE again or, while it is
in flight, nothing; in any other case the old session is closed and a new one opened in one event, and a committed link
clear whose DONE that discards is made at its end. That the address switches are read with every OPEN is the model's
choice (assumption 12). -/
def Obligations.OpenSessions : Prop :=
  ∀ (sw : Switches) (f : Frame) (s : State), Accepts s FrameKind.request Kind.openSession f →
    let h := frameHost f
    let cls : SessionClass :=
      if s.panel.managerAddress ≠ 0 ∧ h = s.panel.managerAddress then .manager else .normal
    let opened (replaced : Byte) (u : State) : State :=
      { u with
        link := u.link.answeredNew (takenResponse h f.seq .done [cls.code, replaced]),
        sessions := u.sessions ++
          [{ host := h, cls, inFlight := true, lastSeq := f.seq, lastKind := 0x01,
             stored := some { status := .done, payload := [cls.code, replaced] }, tags := [], fault := none,
             delivery := .delivering, out :=
               { entries := [], counter := 0, marker := .clear, attempts := 0, contended := none } }] }
    let read (u : State) : State := { u with panel := { u.panel with switches := sw } }
    (s.session? h = none → s.sessions.length < 8 →
      exec (.openSession sw f) s = .next (opened 0x00 (read s))) ∧
    (s.session? h = none → 8 ≤ s.sessions.length →
      exec (.openSession sw f) s = .next (read (s.repliedTo f .full [] .noSession))) ∧
    (∀ x, s.session? h = some x → f.seq = x.lastSeq → x.lastKind = 0x01 → x.inFlight = true →
      exec (.openSession sw f) s = .next (read (s.accepting f))) ∧
    (∀ x r, s.session? h = some x → f.seq = x.lastSeq → x.lastKind = 0x01 → x.inFlight = false →
      x.stored = some r →
      exec (.openSession sw f) s = .next (read (s.repliedTo f r.status r.payload .session))) ∧
    (∀ x, s.session? h = some x → ¬ (f.seq = x.lastSeq ∧ x.lastKind = 0x01) → HandlesDistinct s →
      let new := opened 0x01 ((read (s.accepting f)).closed h)
      let dropsDone := s.panel.clearCommitted = true ∧
        ∃ r ∈ s.link.responses, r.host = h ∧ r.owner = .session ∧ r.clears = true
      (¬ dropsDone → exec (.openSession sw f) s = .next new) ∧
      (dropsDone → exec (.openSession sw f) s = .next (new.cleared sw)))

/-- CLOSE: the session goes as R92 gives, and a DONE that is stored nowhere is formed for it. -/
def Obligations.CloseRemovesSession : Prop :=
  ∀ (s : State) (f : Frame) (x : Session), NewRequest s Kind.closeSession f x → f.payload = [] → HandlesDistinct s →
    let c := (s.taking Kind.closeSession f).closed (frameHost f)
    exec (.closeSession f) s = .next { c with link := { c.link with responses := c.link.responses ++
      [{ host := frameHost f, seq := f.seq, status := .done, payload := [], taken := true, owner := .noSession,
         clears := false }] } } ∧
    c.session? (frameHost f) = none

/-- FETCH FAULT: DONE with the fault record, which is removed; DONE with an empty payload when there is none. -/
def Obligations.FetchFaultAnswered : Prop :=
  ∀ (s : State) (f : Frame) (x : Session), NewRequest s Kind.fetchFault f x → f.payload = [] →
    (∀ r, x.fault = some r →
      exec (.fetchFault f) s = .next (s.answeredRequestWith (fun y => { y with fault := none }) Kind.fetchFault f .done
        [r.code.code, r.kind, r.seq, (match r.index with | some i => i.setWidth 8 | none => 0xFF),
         if r.second then 0x01 else 0x00])) ∧
    (x.fault = none → exec (.fetchFault f) s = .next (s.answeredRequest Kind.fetchFault f .done []))

/-- A new request of unknown kind is answered FAULT BAD_KIND with its code in the fault record; one whose payload has a
wrong length or form for its kind, FAULT MALFORMED with the index of the first field that fails; no table changes. -/
def Obligations.UnknownAndMalformedRequests : Prop :=
  (∀ (s : State) (f : Frame) (x : Session) (kind : Byte), NewRequest s kind f x → kind ∉ requestKinds →
    exec (.unknownRequestKind kind f) s = .next (s.deniedRequest kind f (.fault .badKind none))) ∧
  (∀ (s : State) (c : Instr) (f : Frame) (x : Session) (kind : Byte) (i : Option FieldIndex),
    requestOf c = some (kind, f) → NewRequest s kind f x → formatFault kind f.payload = some i →
    exec c s = .next (s.deniedRequest kind f (.fault .malformed i)))

/-- A REQUEST other than OPEN from a host without a session: PROBE is answered DONE, any other kind NO_SESSION; neither is
stored and no table changes. From a host with a session: the number after the last is answered BUSY while a request is in
flight; the last number is ignored while it is in flight and answered from the stored response otherwise. -/
def Obligations.RequestsNotTaken : Prop :=
  ∀ (s : State) (c : Instr) (f : Frame) (kind : Byte), requestOf c = some (kind, f) →
    Accepts s FrameKind.request kind f →
    (s.session? (frameHost f) = none →
      (kind ≠ Kind.probe → exec c s = .next (s.repliedTo f .noSession [] .noSession)) ∧
      (kind = Kind.probe → exec c s = .next (s.repliedTo f .done s.probePayload .noSession))) ∧
    (∀ x, s.session? (frameHost f) = some x →
      (f.seq = x.lastSeq + 1 → x.inFlight = true → exec c s = .next (s.repliedTo f .busy [] .session)) ∧
      (f.seq = x.lastSeq → x.inFlight = true → exec c s = .next (s.accepting f)) ∧
      (∀ r, f.seq = x.lastSeq → x.inFlight = false → x.stored = some r →
        exec c s = .next (s.repliedTo f r.status r.payload .session)))

/-- A REQUEST whose number is neither the last nor the next: FAULT SEQUENCE, recorded without a field index; with no
request in flight the replay record takes its number, kind and FAULT; with one in flight it stays. -/
def Obligations.SequenceFaultAnswered : Prop :=
  ∀ (s : State) (c : Instr) (f : Frame) (kind : Byte) (x : Session), requestOf c = some (kind, f) →
    Accepts s FrameKind.request kind f → s.session? (frameHost f) = some x →
    f.seq ≠ x.lastSeq → f.seq ≠ x.lastSeq + 1 →
    let u := s.repliedTo f .fault [] .session
    let recorded (y : Session) : Session := { y with fault := some (faultAfter y.fault .sequence kind f.seq none) }
    let change (g : Session → Session) : State :=
      { u with sessions := u.sessions.map (fun y => if y.host = frameHost f then g y else y) }
    (x.inFlight = true → exec c s = .next (change recorded)) ∧
    (x.inFlight = false → exec c s = .next (change (fun y =>
      { recorded y with lastSeq := f.seq, lastKind := kind, stored := some { status := .fault, payload := [] } })))

/-! ### The Link Interface -/

/-- Reception: a frame passes the tests when its CRC is that of header and payload, its destination is the sampled node
address and not 0, its source is 1 to 15 and not that address, and its frame kind is REQUEST or ACK. START_DELIMITER begins
a frame; FRAME_TRUNCATED, FRAME_DISCARD of a frame that fails a test, and an OPEN, other request or ACK that fails a test or
has more than 96 payload bytes only return the receive state to IDLE; while the part transmits or the link reset line is
asserted, nothing is taken. With an OPEN the address switches are read. These are the model's choices: that a command for a
frame changes nothing while the part cannot receive (assumption 7), that a frame command of more than 96 payload bytes is
discarded (assumption 14), and that the switches are read with every OPEN (assumption 12). -/
def Obligations.Reception : Prop :=
  ∀ s : State,
    let idle : State := { s with link := { s.link with receive := .idle } }
    (∀ (node : Addr) (frameKind kind : Byte) (f : Frame), accepted node frameKind kind f = true ↔
      f.crc = crc16 ([f.dest, f.src, frameKind, f.seq, kind, BitVec.ofNat 8 f.payload.length] ++ f.payload) ∧
      node ≠ 0 ∧ f.dest.toNat = node.toNat ∧
      1 ≤ f.src.toNat ∧ f.src.toNat ≤ 15 ∧ f.src.toNat ≠ node.toNat ∧ (frameKind = 0x01 ∨ frameKind = 0x05)) ∧
    (∀ (node : Addr) (frameKind kind : Byte) (f : Frame), accepted node frameKind kind f = true →
      (frameHost f).toNat = f.src.toNat) ∧
    (s.receives = true ↔ s.link.tx = none ∧ s.link.resetLine = .released) ∧
    (s.receives = true → exec .startDelimiter s = .next { s with link := { s.link with receive := .receiving } }) ∧
    (s.receives = false → exec .startDelimiter s = .next s) ∧
    exec .frameTruncated s = .next idle ∧
    (∀ frameKind kind f, accepted s.panel.nodeAddress frameKind kind f = false ∨ 96 < f.payload.length →
      exec (.frameDiscard frameKind kind f) s = .next idle) ∧
    (∀ c kind f, requestOf c = some (kind, f) →
      (s.receives = false → exec c s = .next s) ∧
      (s.receives = true → accepted s.panel.nodeAddress FrameKind.request kind f = false ∨ 96 < f.payload.length →
        exec c s = .next idle)) ∧
    (∀ kind f,
      (s.receives = false → exec (.ack kind f) s = .next s) ∧
      (s.receives = true → accepted s.panel.nodeAddress FrameKind.ack kind f = false ∨ 96 < f.payload.length →
        exec (.ack kind f) s = .next idle)) ∧
    (∀ sw f,
      (s.receives = false → exec (.openSession sw f) s = .next { s with panel := { s.panel with switches := sw } }) ∧
      (s.receives = true →
        accepted s.panel.nodeAddress FrameKind.request Kind.openSession f = false ∨ 96 < f.payload.length →
        exec (.openSession sw f) s = .next { idle with panel := { s.panel with switches := sw } }))

/-- ACK of the entry in flight of its host's session: the entry leaves the queue, a completion's tag is freed, a
LOST-flagged notice clears a REPORTED marker, the attempt count is 0 and the attempt ends. Any other ACK is ignored, but
that it resumes a STALLED session. That the ACK of an entry lost to contention, which waits to be sent again, is one of the
ignored ones is the model's reading (assumption 25). -/
def Obligations.AckTaken : Prop :=
  ∀ (s : State) (kind : Byte) (f : Frame), Accepts s FrameKind.ack kind f →
    (∀ a x e rest, s.delivery.attempt = some a → a.host = frameHost f → a.seq = f.seq →
      s.session? (frameHost f) = some x → x.out.entries = e :: rest → e.seq = f.seq →
      (x.out.entries.map Entry.seq).Nodup →
      ∃ t, exec (.ack kind f) s = .next t ∧
        t = { s with link := { s.link with receive := .idle }, sessions := t.sessions,
                     delivery := { s.delivery with attempt := none } } ∧
        OthersSame (frameHost f) s t ∧
        t.session? (frameHost f) = some { x with
          delivery := .delivering,
          tags := (match e.body with
            | .completion tag _ => x.tags.filter (fun k => decide (k ≠ tag))
            | .notice _ _ => x.tags),
          out := { entries := rest, counter := x.out.counter, attempts := 0, contended := none,
                   marker := match e.body with
                     | .notice _ (some true) => if x.out.marker = .reported then .clear else x.out.marker
                     | _ => x.out.marker } }) ∧
    ((∀ a, s.delivery.attempt = some a → ¬ (a.host = frameHost f ∧ a.seq = f.seq)) →
      exec (.ack kind f) s = .next (s.accepting f))

/-- TRANSMIT_START: the oldest response; with none, and no entry in flight, the head of the first session in round-robin
order that is DELIVERING and has an entry, its LOST flag fixed at the first transmission; otherwise nothing, and nothing
while the part receives, transmits, is unaddressed or has the reset line asserted. The bytes of the frame are the
delimiter, header, payload and CRC; a completion's payload is its tag, for GRANTED with handle, token and term; a notice's
is slot, channel, handle, token and LOST. That tACK is read at the start of the transmission is the model's reading
(assumption 15). -/
def Obligations.TransmitStartChooses : Prop :=
  ∀ s : State,
    let ready := s.link.tx = none ∧ s.link.resetLine = .released ∧ s.link.receive = .idle ∧ s.panel.nodeAddress ≠ 0
    (∀ r rest, ready → s.link.responses = r :: rest →
      exec .transmitStart s = .next { s with link := { s.link with
        responses := rest,
        tx := some { item := .response r,
                     wire := wireFrame (addrByte r.host) (addrByte s.panel.nodeAddress) 0x02 r.seq r.status.code
                       r.payload } } }) ∧
    (∀ h x e rest, ready → s.link.responses = [] → s.delivery.attempt = none →
      h ≠ 0 → s.session? h = some x → x.delivery = .delivering → x.out.entries = e :: rest →
      (∀ k, k ≠ 0 → HasTurn s k → turnsBefore s.delivery.pointer h ≤ turnsBefore s.delivery.pointer k) →
      ∃ t, exec .transmitStart s = .next t ∧
        t = { s with
          link := { s.link with tx := some { item := .entry h e.seq true,
                                             wire := (e.sent x.out.marker).1.wire s.panel.nodeAddress h } },
          delivery := { s.delivery with
            attempt := some { host := h, seq := e.seq, tAck := s.panel.config.tAck, deadline := none } },
          sessions := t.sessions } ∧
        OthersSame h s t ∧
        t.session? h = some { x with out := { x.out with
          entries := (e.sent x.out.marker).1 :: rest, marker := (e.sent x.out.marker).2, contended := none } }) ∧
    (∀ (node h : Addr) (seq : Byte),
      (∀ st payload taken owner clears,
        Response.wire node ⟨h, seq, st, payload, taken, owner, clears⟩ = frameOnPair h node 0x02 seq st.code payload) ∧
      (∀ (tag : Tag) (hd : Handle) (token : Token) (term : Word16),
        Entry.wire node h ⟨seq, .completion tag (.granted hd token term)⟩ = frameOnPair h node 0x03 seq 0x01
          [tag.setWidth 8, BitVec.ofNat 8 hd.val,
           token.extractLsb' 24 8, token.extractLsb' 16 8, token.extractLsb' 8 8, token.extractLsb' 0 8,
           term.extractLsb' 8 8, term.extractLsb' 0 8]) ∧
      (∀ tag : Tag,
        Entry.wire node h ⟨seq, .completion tag .timedOut⟩ = frameOnPair h node 0x03 seq 0x02 [tag.setWidth 8] ∧
        Entry.wire node h ⟨seq, .completion tag .vacated⟩ = frameOnPair h node 0x03 seq 0x03 [tag.setWidth 8]) ∧
      (∀ (slot : SlotNo) (lost : Option Bool),
        Entry.wire node h ⟨seq, .notice (.attention slot) lost⟩ = frameOnPair h node 0x04 seq 0x01
          [BitVec.ofNat 8 slot.val, 0xFF, 0xFF, 0, 0, 0, 0, if lost = some true then 0x01 else 0x00]) ∧
      (∀ (kind : LeaseNotice) (r : Resource) (hd : Handle) (token : Token) (lost : Option Bool),
        Entry.wire node h ⟨seq, .notice (.lease kind r hd token) lost⟩ = frameOnPair h node 0x04 seq
          (match kind with | .recall => 0x02 | .expired => 0x03 | .revoked => 0x04 | .vacated => 0x05)
          [BitVec.ofNat 8 r.slot.val, (match r.channel with | some c => BitVec.ofNat 8 c.val | none => 0xFF),
           BitVec.ofNat 8 hd.val,
           token.extractLsb' 24 8, token.extractLsb' 16 8, token.extractLsb' 8 8, token.extractLsb' 0 8,
           if lost = some true then 0x01 else 0x00])) ∧
    (s.link.responses = [] → s.delivery.attempt ≠ none ∨ (∀ h, h ≠ 0 → ¬ HasTurn s h) →
      exec .transmitStart s = .next s) ∧
    (¬ ready → exec .transmitStart s = .next s)

/-- TRANSMISSION_END and CONTENTION_LOSS. The end of a response ends the in-flight state of the request it was formed
for, and makes the link clear that hangs on it; the end of an entry moves the round-robin pointer and starts the tACK wait.
A response lost to contention stays pending in its place; a lost entry is undelivered again, and neither its attempts nor
the pointer change. Where the session has been closed meanwhile, the end of its entry sets the pointer and starts no wait, a
lost entry or response is gone, and a committed clear that hung on the response is made. That the switches are read with every end of a transmission is the model's choice (assumption 12); so
are that a lost response of the second group is dropped where a later one has displaced it, and what becomes of the frames of
closed sessions, which no run reaches (assumptions 7 and 16), and that a
later ATTENTION for the slot of a lost ATTENTION is removed (assumption 24). -/
def Obligations.TransmissionsEnd : Prop :=
  ∀ s : State,
    let lost : State := { s with link := { s.link with tx := none } }
    (∀ sw : Switches,
      let u : State := { s with panel := { s.panel with switches := sw }, link := { s.link with tx := none } }
      (∀ r wire, s.link.tx = some { item := .response r, wire } → r.taken = true → r.owner = .session →
        r.status ≠ .deferred → ¬ (r.clears = true ∧ s.panel.clearCommitted = true) →
        exec (.transmissionEnd sw) s = .next { u with
          sessions := s.sessions.map (fun x => if x.host = r.host then { x with inFlight := false } else x) }) ∧
      (∀ r wire, s.link.tx = some { item := .response r, wire } →
        r.taken = false ∨ r.owner ≠ .session ∨ r.status = .deferred → r.clears = false →
        exec (.transmissionEnd sw) s = .next u) ∧
      (∀ r wire, s.link.tx = some { item := .response r, wire } → r.clears = true → s.panel.clearCommitted = true →
        exec (.transmissionEnd sw) s = .next (s.cleared sw)) ∧
      (∀ h n wire a, s.link.tx = some { item := .entry h n true, wire } → s.delivery.attempt = some a →
        exec (.transmissionEnd sw) s = .next { u with
          delivery := { pointer := some h,
                        attempt := some { a with deadline := some (s.now + a.tAck.toNat * 1000) } } }) ∧
      (∀ h n wire, s.link.tx = some { item := .entry h n false, wire } →
        exec (.transmissionEnd sw) s = .next { u with
          delivery := { pointer := some h, attempt := s.delivery.attempt } }) ∧
      (s.link.tx = none → exec (.transmissionEnd sw) s = .next { s with panel := { s.panel with switches := sw } })) ∧
    (∀ r wire, s.link.tx = some { item := .response r, wire } → r.owner ≠ .closed →
      (r.taken = true ∨ ∀ q ∈ s.link.responses, ¬ (q.taken = false ∧ q.host = r.host)) →
      exec .contentionLoss s = .next
        { s with link := { s.link with tx := none, responses := r :: s.link.responses } }) ∧
    (∀ r wire, s.link.tx = some { item := .response r, wire } → r.owner ≠ .closed → r.taken = false →
      (∃ q ∈ s.link.responses, q.taken = false ∧ q.host = r.host) → exec .contentionLoss s = .next lost) ∧
    (∀ r wire, s.link.tx = some { item := .response r, wire } → r.owner = .closed →
      (¬ (r.clears = true ∧ s.panel.clearCommitted = true) → exec .contentionLoss s = .next lost) ∧
      (r.clears = true → s.panel.clearCommitted = true →
        exec .contentionLoss s = .next (s.cleared s.panel.switches))) ∧
    (∀ h n wire a x e rest, s.link.tx = some { item := .entry h n true, wire } → s.delivery.attempt = some a →
      a.host = h → a.seq = n → s.session? h = some x → x.out.entries = e :: rest → e.seq = n →
      (x.out.entries.map Entry.seq).Nodup →
      ∃ t, exec .contentionLoss s = .next t ∧
        t = { lost with sessions := t.sessions, delivery := { s.delivery with attempt := none } } ∧
        OthersSame h s t ∧
        t.session? h = some { x with out := { x.out with
          entries := e :: (match e.body with
            | .notice (.attention slot) _ => rest.filter (fun q => !q.isAttention slot)
            | _ => rest),
          contended := some n } }) ∧
    (∀ h n wire, s.link.tx = some { item := .entry h n false, wire } → exec .contentionLoss s = .next lost) ∧
    (s.link.tx = none → exec .contentionLoss s = .next s)

/-- TACK_EXPIRY: the entry in flight is undelivered again in its place, the attempt count advances, a later ATTENTION for
the slot of an expired ATTENTION goes, and the session stalls when the count reaches the configured attempts. That the
clock runs on to the deadline is the model's choice (assumption 3). -/
def Obligations.TackExpiryCounts : Prop :=
  ∀ s : State,
    (∀ a d x e rest, s.delivery.attempt = some a → a.deadline = some d → s.session? a.host = some x →
      x.out.entries = e :: rest → e.seq = a.seq → (x.out.entries.map Entry.seq).Nodup →
      ∃ t, exec .tackExpiry s = .next t ∧
        t = { s with now := max s.now d, sessions := t.sessions,
                     delivery := { s.delivery with attempt := none } } ∧
        OthersSame a.host s t ∧
        t.session? a.host = some { x with
          delivery := if s.panel.config.attempts.toNat ≤ x.out.attempts + 1 then .stalled else x.delivery,
          out := { x.out with
            entries := e :: (match e.body with
              | .notice (.attention slot) _ => rest.filter (fun q => !q.isAttention slot)
              | _ => rest),
            attempts := x.out.attempts + 1 } }) ∧
    ((∀ a, s.delivery.attempt = some a → a.deadline = none) → exec .tackExpiry s = .next s)

/-- LINK_RESET_ASSERT makes a link clear and abandons reception and transmission; a further low level on an asserted line
is no event; LINK_RESET_RELEASE changes only the condition. -/
def Obligations.LinkResetClears : Prop :=
  ∀ (s : State) (sw : Switches),
    (s.link.resetLine = .released → exec (.linkResetAssert sw) s = .next { s.cleared sw with
      link := { receive := .idle, resetLine := .asserted, tx := none, responses := [] } }) ∧
    (s.link.resetLine = .asserted → exec (.linkResetAssert sw) s = .next s) ∧
    exec .linkResetRelease s = .next { s with link := { s.link with resetLine := .released } }

/-- What happens to a notice handed to an Outbound Queue: ATTENTION is coalesced into an undelivered one for its slot; a
retirement notice takes the place of the lease's undelivered RECALL; any other joins at the end, or is dropped on 8
notices, which sets the marker. The number it takes is the first one from the counter on that no entry carries, and the
counter goes past it. A completion always joins at the end. The attempt count returns to 0 when the head changes. That the number of an entry in a RECALL's
place is chosen while the RECALL still carries its own is the model's reading (assumption 10). -/
def Obligations.NoticesJoin : Prop :=
  ∀ (q : OutboundQueue) (flying : Option Byte),
    let joined (body : EntryBody) : List Entry := q.entries ++ [{ seq := q.nextNumber, body }]
    (q.entries.length < 256 → ∀ e ∈ q.entries, e.seq ≠ q.nextNumber) ∧
    ((∀ e ∈ q.entries, e.seq ≠ q.counter) → q.nextNumber = q.counter) ∧
    (∃ k ≤ q.entries.length, q.nextNumber = q.counter + BitVec.ofNat 8 k ∧
      ∀ j < k, ∃ e ∈ q.entries, e.seq = q.counter + BitVec.ofNat 8 j) ∧
    (∀ tag outcome, (q.handCompletion tag outcome).entries = joined (.completion tag outcome) ∧
      (q.handCompletion tag outcome).counter = q.nextNumber + 1 ∧
      (q.handCompletion tag outcome).marker = q.marker ∧
      ((q.handCompletion tag outcome).attempts = if q.entries = [] then 0 else q.attempts) ∧
      (q.handCompletion tag outcome).contended = if q.entries = [] then none else q.contended) ∧
    (∀ slot, (∃ e ∈ q.entries, flying ≠ some e.seq ∧ e.isAttention slot = true) →
      q.hand flying (.attention slot) = q) ∧
    (∀ n, (∀ slot, n = .attention slot → ∀ e ∈ q.entries, ¬ (flying ≠ some e.seq ∧ e.isAttention slot = true)) →
      (∀ k r h t, n = .lease k r h t → k ≠ .recall →
        ∀ e ∈ q.entries, ¬ (flying ≠ some e.seq ∧ e.isRecall h t = true)) →
      (q.notices < 8 → (q.hand flying n).entries = joined (.notice n none) ∧
        (q.hand flying n).counter = q.nextNumber + 1 ∧ (q.hand flying n).marker = q.marker ∧
        ((q.hand flying n).attempts = if q.entries = [] then 0 else q.attempts) ∧
        (q.hand flying n).contended = if q.entries = [] then none else q.contended) ∧
      (8 ≤ q.notices → q.hand flying n = { q with marker := .set })) ∧
    (∀ k r h t front e back, k ≠ .recall → q.entries = front ++ e :: back →
      flying ≠ some e.seq → e.isRecall h t = true →
      (∀ b ∈ front, ¬ (flying ≠ some b.seq ∧ b.isRecall h t = true)) →
      (q.hand flying (.lease k r h t)).entries =
        front ++ { seq := q.nextNumber, body := .notice (.lease k r h t) none } :: back ∧
      (q.hand flying (.lease k r h t)).marker =
        (if e.lost = some true ∧ q.marker = .reported then .set else q.marker) ∧
      (q.hand flying (.lease k r h t)).counter = q.nextNumber + 1 ∧
      (q.entries.length < 256 →
        ((q.hand flying (.lease k r h t)).attempts = if front = [] then 0 else q.attempts) ∧
        (q.hand flying (.lease k r h t)).contended = if front = [] then none else q.contended))

/-! ### The Booking Unit -/

/-- BOOK: BAD_RESOURCE for a slot above 15; else the session's booking on the slot is ARMED with the mode, created if need
be, and DONE; on a raised effective level it fires at once: a ONCE booking is gone, a STANDING one FIRED, and ATTENTION is
handed to the session. -/
def Obligations.BookArms : Prop :=
  ∀ (s : State) (f : Frame) (x : Session) (b : Byte) (mode : BookingMode), NewRequest s Kind.book f x →
    f.payload = [b, if mode = .standing then 0x01 else 0x00] →
    let h := frameHost f
    (16 ≤ b.toNat → exec (.book f) s = .next (s.deniedRequest Kind.book f (.fault .badResource (some 0)))) ∧
    (∀ slot : SlotNo, b.toNat = slot.val →
      let others := s.bookings.filter (fun k => !(decide (k.session = h) && decide (k.slot = slot)))
      let raised := (s.slots[slot]).state.isReady && (s.slots[slot]).attention
      (raised = false → exec (.book f) s = .next { s.answeredRequest Kind.book f .done [] with
        bookings := others ++ [{ session := h, slot, mode, state := .armed }] }) ∧
      (raised = true → exec (.book f) s = .next
        { s.answeredRequestWith (fun y => { y with out := y.out.hand (s.flying h) (.attention slot) })
            Kind.book f .done [] with
          bookings := others ++
            (if mode = .standing then [{ session := h, slot, mode := .standing, state := .fired }] else []) }))

/-- UNBOOK and REARM. UNBOOK removes the booking and the undelivered ATTENTION entry, and is answered DONE in every case;
the attempt count returns to 0 when the entry was the head. The marker stays as it is, but that a REPORTED
one goes to SET when the removed entry carried LOST: two rules differ there, and this is the model's reading (assumption
9). REARM: STALE without a booking; an ARMED one stays; a
FIRED one is armed, or fires again at once on a raised effective level. -/
def Obligations.UnbookAndRearm : Prop :=
  (∀ (s : State) (c : Instr) (f : Frame) (x : Session) (kind b : Byte), requestOf c = some (kind, f) →
    kind = Kind.unbook ∨ kind = Kind.rearm → NewRequest s kind f x → f.payload = [b] → 16 ≤ b.toNat →
    exec c s = .next (s.deniedRequest kind f (.fault .badResource (some 0)))) ∧
  (∀ (s : State) (f : Frame) (x : Session) (b : Byte) (slot : SlotNo), NewRequest s Kind.unbook f x →
    f.payload = [b] → b.toNat = slot.val →
    exec (.unbook f) s = .next
      { s.answeredRequestWith (fun y => { y with out := y.out.unbook (s.flying (frameHost f)) slot })
          Kind.unbook f .done [] with
        bookings := s.bookings.filter (fun k => !(decide (k.session = frameHost f) && decide (k.slot = slot))) }) ∧
  (∀ (q : OutboundQueue) (flying : Option Byte) (slot : SlotNo),
    let gone (e : Entry) : Bool := decide (flying ≠ some e.seq) && e.isAttention slot
    (q.unbook flying slot).entries = q.entries.filter (fun e => !gone e) ∧
    (q.unbook flying slot).counter = q.counter ∧
    ((∀ e ∈ q.entries, gone e = true → e.lost ≠ some true) → (q.unbook flying slot).marker = q.marker) ∧
    (q.entries.countP gone ≤ 1 → (∃ e ∈ q.entries, gone e = true ∧ e.lost = some true) →
      (q.unbook flying slot).marker = if q.marker = .reported then .set else q.marker) ∧
    ((∀ e, q.entries.head? = some e → gone e = false) →
      (q.unbook flying slot).attempts = q.attempts ∧ (q.unbook flying slot).contended = q.contended) ∧
    (∀ e, q.entries.head? = some e → gone e = true → (q.entries.map Entry.seq).Nodup →
      (q.unbook flying slot).attempts = 0 ∧ (q.unbook flying slot).contended = none)) ∧
  (∀ (s : State) (f : Frame) (x : Session) (b : Byte) (slot : SlotNo), NewRequest s Kind.rearm f x →
    f.payload = [b] → b.toNat = slot.val → BookingsDistinct s →
    let h := frameHost f
    let raised := (s.slots[slot]).state.isReady && (s.slots[slot]).attention
    ((∀ k ∈ s.bookings, ¬ (k.session = h ∧ k.slot = slot)) →
      exec (.rearm f) s = .next (s.answeredRequest Kind.rearm f .stale [])) ∧
    (∀ k ∈ s.bookings, k.session = h → k.slot = slot →
      (k.state = .armed → exec (.rearm f) s = .next (s.answeredRequest Kind.rearm f .done [])) ∧
      (k.state = .fired → raised = false →
        exec (.rearm f) s = .next { s.answeredRequest Kind.rearm f .done [] with
          bookings := s.bookings.map (fun j =>
            if j.session = h ∧ j.slot = slot then { j with state := .armed } else j) }) ∧
      (k.state = .fired → k.mode = .standing → raised = true →
        exec (.rearm f) s = .next
          (s.answeredRequestWith (fun y => { y with out := y.out.hand (s.flying h) (.attention slot) })
            Kind.rearm f .done []))))

/-! ### The Panel Block -/

/-- PROBE as a new request: DONE with product 620, the sampled addresses, the service state, the numbers of free records
and one byte for each slot; the payload is not examined, and nothing else changes. -/
def Obligations.ProbeAnswered : Prop :=
  ∀ (s : State) (f : Frame) (x : Session), NewRequest s Kind.probe f x →
    exec (.probe f) s = .next (s.answeredRequest Kind.probe f .done
      ([0x02, 0x6C, s.panel.nodeAddress.setWidth 8, s.panel.managerAddress.setWidth 8,
        (if s.panel.service = .online then 0x00 else 0x01),
        BitVec.ofNat 8 (8 - s.sessions.length), BitVec.ofNat 8 (64 - s.lm.leases.length),
        BitVec.ofNat 8 (32 - s.lm.waits.length)] ++
        s.slots.toList.map (fun r =>
          match r.state with
          | .empty => 0x00
          | .settling _ => 0x10
          | .identifying => 0x20
          | .ready n _ => BitVec.ofNat 8 (48 + n.toNat)
          | .faulted => 0x40)))

/-- CONFIGURE: NOT_PERMITTED from a NORMAL session; CONFIG_LOCKED while a lease or a wait record stands; BAD_CONFIG with
the first field out of range; else the four values are put in force and sent back. -/
def Obligations.ConfigureAnswered : Prop :=
  ∀ (s : State) (f : Frame) (x : Session) (c : ConfigRecord), NewRequest s Kind.configure f x →
    f.payload = [c.tGrace, c.tAck, c.attempts] ++ bytes16 c.maxTerm →
    let denied (d : Denial) : Prop := exec (.configure f) s = .next (s.deniedRequest Kind.configure f d)
    let empty := s.lm.leases = [] ∧ s.lm.waits = []
    let grace := 1 ≤ c.tGrace.toNat ∧ c.tGrace.toNat ≤ 60
    let tack := 1 ≤ c.tAck.toNat ∧ c.tAck.toNat ≤ 50
    let tries := 1 ≤ c.attempts.toNat ∧ c.attempts.toNat ≤ 8
    let top := 1 ≤ c.maxTerm.toNat ∧ c.maxTerm.toNat ≤ 4095
    (x.cls = .normal → denied (.fault .notPermitted none)) ∧
    (x.cls = .manager → ¬ empty → denied (.fault .configLocked none)) ∧
    (x.cls = .manager → empty → ¬ grace → denied (.fault .badConfig (some 0))) ∧
    (x.cls = .manager → empty → grace → ¬ tack → denied (.fault .badConfig (some 1))) ∧
    (x.cls = .manager → empty → grace → tack → ¬ tries → denied (.fault .badConfig (some 2))) ∧
    (x.cls = .manager → empty → grace → tack → tries → ¬ top → denied (.fault .badConfig (some 3))) ∧
    (x.cls = .manager → empty → grace → tack → tries → top →
      exec (.configure f) s = .next { s.answeredRequest Kind.configure f .done f.payload with
        panel := { s.panel with config := c } })

/-- RESET CONTROLLER: NOT_PERMITTED from a NORMAL session; from the MANAGER's, DONE, and a link clear is committed that
hangs on that DONE. -/
def Obligations.ResetControllerCommits : Prop :=
  ∀ (s : State) (f : Frame) (x : Session), NewRequest s Kind.resetController f x → f.payload = [] →
    (x.cls = .normal → exec (.resetController f) s = .next
      (s.deniedRequest Kind.resetController f (.fault .notPermitted none))) ∧
    (x.cls = .manager → exec (.resetController f) s = .next
      { s.answeredRequest Kind.resetController f .done [] with
        link := s.link.answeredNew { takenResponse (frameHost f) f.seq .done [] with clears := true },
        panel := { s.panel with clearCommitted := true } })

/-- The service switch: a change to SERVICE changes the recorded position only; a change to ONLINE runs a walk; a change
to the position already recorded is none. -/
def Obligations.ServiceSwitchMoves : Prop :=
  ∀ s : State,
    exec .switchToService s = .next { s with panel := { s.panel with service := .service } } ∧
    (s.panel.service = .service →
      exec .switchToOnline s = .next ({ s with panel := { s.panel with service := .online } }).walk) ∧
    (s.panel.service = .online → exec .switchToOnline s = .next s)

/-! ### The laws that every step keeps -/

/-- Every step keeps: overlapping leases are both SHARED; and, while a guard is set, every lease is compatible with it but
for the lease of the cycle's own session that claims the resource and mode it was copied from, of which there is at most
one when the guard is EXCLUSIVE. -/
def Obligations.StepKeepsLeasesCompatible : Prop :=
  ∀ s t : State, LeasesCompatible s → GuardLaw s → step s = .next t → LeasesCompatible t ∧ GuardLaw t

/-- The Lease Table (R21): at most 64 records in every state that keeps handles distinct, which every step does; with all
64 live, neither a walk nor an ACQUIRE grants; and neither displaces a record: every record stands as it stood but for its
state field, in the same order, before any new one. -/
def Obligations.LeaseTableHolds64 : Prop :=
  (∀ s t : State, HandlesDistinct s → step s = .next t → HandlesDistinct t ∧ t.lm.leases.length ≤ 64) ∧
  (∀ (s t : State) (f : Frame), exec (.acquire f) s = .next t ∨ t = s.walk →
    (s.lm.leases.map Lease.sansState) <+: (t.lm.leases.map Lease.sansState) ∧
    (TableFull s.lm.leases → t.lm.leases.length = s.lm.leases.length))

/-- Every step keeps: no two leases carry the same token, and neither a lease nor the counter holds 0. -/
def Obligations.StepKeepsTokensDistinct : Prop :=
  ∀ s t : State, HandlesDistinct s → TokensDistinct s → step s = .next t → TokensDistinct t

/-- Every step keeps: every lease and every wait record names a READY slot and, for channel scope, a channel below its
count. -/
def Obligations.StepKeepsResourcesValid : Prop :=
  ∀ s t : State, ResourcesValid s → step s = .next t → ResourcesValid t

/-- Every step keeps: urgent records stand first in the Wait Pool; at most one booking for each session and slot; every
configuration field within its range; every term of a lease or a wait from 1 to max term. -/
def Obligations.StepKeepsTableForms : Prop :=
  ∀ s t : State, step s = .next t →
    (UrgentFirst s → UrgentFirst t) ∧ (BookingsDistinct s → BookingsDistinct t) ∧ (ConfigLaw s → ConfigLaw t) ∧
    (TermLaw s → TermLaw t)

/-- Every step keeps the session laws: at most 8 sessions with distinct non-zero hosts; every lease, wait, booking and
queued access owned by one; outstanding tags exactly those of waits and unacknowledged completions, distinct and at most
4; at most 8 notices, at most one undelivered ATTENTION for each slot and distinct numbers in each queue; no two waits with
the same session and tag; each session of the class that the manager address gives its host, and so at most one MANAGER
session. The limit on ATTENTION entries rests on the model's reading of a loss to contention (assumption 24). -/
def Obligations.StepKeepsSessionLaws : Prop :=
  ∀ s t : State,
    SessionsDistinct s → RecordsOwned s → TagLaw s → QueueLaw s → WaitsDistinct s → ClassLaw s → step s = .next t →
    SessionsDistinct t ∧ RecordsOwned t ∧ TagLaw t ∧ QueueLaw t ∧ WaitsDistinct t ∧ ClassLaw t ∧
    ∀ x ∈ t.sessions, ∀ y ∈ t.sessions, x.cls = .manager → y.cls = .manager → x = y

/-- Every step keeps: the entry in flight is the head of the queue of an open session; and with that, an entry that was
lost to contention and waits to be sent again is the head of its queue, and not in flight. -/
def Obligations.StepKeepsHeadInFlight : Prop :=
  ∀ s t : State, HeadInFlight s → step s = .next t → HeadInFlight t ∧ (ContendedLaw s → ContendedLaw t)

/-- Every step keeps: a guard is set exactly while an ACCESS cycle is in flight, no claimant waits on a free backplane,
exactly the slots in IDENTIFYING await or undergo identification, and a slot is EMPTY exactly while its presence is
released, with 1 to 4 channels when READY. -/
def Obligations.StepKeepsBackplaneLaws : Prop :=
  ∀ s t : State, BackplaneLaw s → IdentificationLaw s → SlotLaw s → step s = .next t →
    BackplaneLaw t ∧ IdentificationLaw t ∧ SlotLaw t

/-- Every step keeps: a session has a request in flight exactly while one queued access, one cycle or one response stands
for it. -/
def Obligations.StepKeepsFlightLaw : Prop :=
  ∀ s t : State, FlightLaw s → step s = .next t → FlightLaw t

/-- Every step keeps: an unaddressed part, and one whose link reset line is asserted, holds no session and sends
nothing. -/
def Obligations.StepKeepsSilentLaw : Prop :=
  ∀ s t : State, SilentLaw s → step s = .next t → SilentLaw t

/-- Every step from a state whose pool has urgent records first keeps, short of the last value of the 64-bit arrival
counter (which the part does not live to see): arrival numbers have come from the counter, rise within the urgent and within the normal records and do not repeat, and
the leases of one recall group share one grace deadline. -/
def Obligations.StepKeepsArrivalLaw : Prop :=
  ∀ s t : State, s.lm.arrivalCounter ≠ BitVec.allOnes 64 → UrgentFirst s → ArrivalLaw s → step s = .next t →
    ArrivalLaw t

/-- Every step keeps: nothing is received during a transmission, the attempt whose wait has not started is the entry in
transmission and the reverse, and at most one response of the second group waits for each host. -/
def Obligations.StepKeepsTransmissionLaw : Prop :=
  ∀ s t : State, TransmissionLaw s → step s = .next t → TransmissionLaw t

/-- One pass finds every grant that can be made: a second walk at once changes nothing. -/
def Obligations.WalkFindsEveryGrant : Prop := ∀ s : State, s.walk.walk = s.walk

/-- Every step keeps, while the token counter has not come to the end of its range (once round it, the spec's tokens come
again): the tokens of leases and of queued accesses are past ones, and a live lease that a queued access names is on its
slot, contains its channel, and is EXCLUSIVE for a WRITE. -/
def Obligations.StepKeepsAccessLaw : Prop :=
  ∀ s t : State, s.lm.tokenCounter.toNat + 64 < 4294967296 → HandlesDistinct s → ResourcesValid s → AccessLaw s →
    step s = .next t → AccessLaw t

/-- The fence: after any command, an ACCESS cycle in flight either was in flight before it, or has just started with the
switch ONLINE, its slot READY and the guard a copy of a live lease of its session, which is on its slot, contains its
channel, and is EXCLUSIVE for a WRITE. -/
def Obligations.CyclesStartUnderLiveLeases : Prop :=
  ∀ (c : Instr) (s t : State) h slot ch op reg discard d, exec c s = .next t →
    s.lm.tokenCounter.toNat + 64 < 4294967296 → HandlesDistinct s → ResourcesValid s → AccessLaw s →
    t.bp.cycle = some { kind := .access h slot ch op reg discard, silence := d } →
    (∃ before, s.bp.cycle = some { kind := .access h slot ch op reg before, silence := d } ∧
      (before = true → discard = true)) ∨
    (discard = false ∧ t.panel.service = .online ∧ (t.slots[slot]).state.isReady = true ∧
      ∃ l ∈ t.lm.leases, l.holder = h ∧ t.bp.guardHold = some l.hold ∧ Permits t l slot ch op)

/-- A station's requests never end another station's lease: the lease stays with handle, token, holder, resource, mode,
term and expiry, and its state stays too, unless the request is an urgent ACQUIRE of the MANAGER, which may mark a HELD one
RECALLED with a grace deadline of now plus tGRACE. An OPEN ends another station's lease only where it discards the DONE
on which a committed link clear hangs. The recall's group is named by the arrival number (the model's choice, assumption
11). -/
def Obligations.RequestsSpareOthersLeases : Prop :=
  ∀ (s t : State) (l : Lease), HandlesDistinct s → l ∈ s.lm.leases →
    (∀ (c : Instr) (kind : Byte) (f : Frame), requestOf c = some (kind, f) → exec c s = .next t →
      l.holder ≠ frameHost f →
      l ∈ t.lm.leases ∨
      (kind = Kind.acquire ∧ f.payload.getD 7 0 = 0x01 ∧ l.state = .held ∧
        (∃ x, s.session? (frameHost f) = some x ∧ x.cls = .manager) ∧
        { l with state := .recalled (s.now + s.panel.config.tGrace.toNat * 1000000) (s.lm.arrivalCounter + 1) } ∈
          t.lm.leases)) ∧
    (∀ (sw : Switches) (f : Frame), exec (.openSession sw f) s = .next t → l.holder ≠ frameHost f →
      l ∈ t.lm.leases ∨
      (s.panel.clearCommitted = true ∧ t.lm.leases = [] ∧
        ∃ r ∈ s.link.responses, r.host = frameHost f ∧ r.owner = .session ∧ r.clears = true))
end

