-- ==== Sys2Proof/Laws/Idle.lean ====
section
/-! SUPPORT. The deadline events that have come due, and the choice among them, said once. -/

namespace Sys2Proof.Machine

variable (s : State)

theorem State.mem_dueSettling (e : Instr) : e ∈ s.dueSettling ↔ ∃ slot, e = .settlingDeadline slot ∧ DueNow s e := by
  simp only [State.dueSettling, List.mem_filterMap, List.mem_finRange, true_and]
  constructor
  · rintro ⟨i, h⟩
    split at h
    · rename_i d hd
      split at h
      · cases h; exact ⟨i, rfl, d, by assumption, hd⟩
      · cases h
    all_goals cases h
  · rintro ⟨i, rfl, d, hd, h⟩
    exact ⟨i, by rw [h]; simp [hd]⟩

theorem State.mem_dueLeases (e : Instr) : e ∈ s.dueLeases ↔ ∃ h, e = .leaseExpiry h ∧ DueNow s e := by
  simp only [State.dueLeases, List.mem_filterMap]
  constructor
  · rintro ⟨l, hl, h⟩
    split at h
    · cases h; exact ⟨_, rfl, l, hl, rfl, by assumption⟩
    · cases h
  · rintro ⟨h, rfl, l, hl, rfl, hx⟩
    exact ⟨l, hl, by simp [hx]⟩

theorem State.mem_dueGroups (e : Instr) : e ∈ s.dueGroups ↔ ∃ g, e = .graceDeadline g ∧ DueNow s e := by
  simp only [State.dueGroups, List.mem_map, List.mem_eraseDups, List.mem_filterMap]
  constructor
  · rintro ⟨g, ⟨l, hl, h⟩, rfl⟩
    split at h
    · rename_i d g' hd
      split at h
      · cases h; exact ⟨_, rfl, l, hl, d, by assumption, hd⟩
      · cases h
    · cases h
  · rintro ⟨g, rfl, l, hl, d, hd, h⟩
    exact ⟨g, ⟨l, hl, by rw [h]; simp [hd]⟩, rfl⟩

theorem State.mem_dueWaits (e : Instr) : e ∈ s.dueWaits ↔ ∃ n, e = .waitDeadline n ∧ DueNow s e := by
  simp only [State.dueWaits, List.mem_filterMap]
  constructor
  · rintro ⟨w, hw, h⟩
    split at h
    · cases h; exact ⟨_, rfl, w, hw, rfl, by assumption⟩
    · cases h
  · rintro ⟨n, rfl, w, hw, rfl, hx⟩
    exact ⟨w, hw, by simp [hx]⟩

theorem State.mem_dueTack (e : Instr) : e ∈ s.dueTack ↔ e = .tackExpiry ∧ DueNow s e := by
  unfold State.dueTack
  constructor
  · intro h
    split at h
    · rename_i _ _ _ d hd
      split at h
      · cases List.mem_singleton.mp h; exact ⟨rfl, _, hd, _, by assumption, rfl⟩
      · cases h
    · cases h
  · rintro ⟨rfl, ⟨h', q, t, w⟩, ha, d, hd, rfl⟩
    rw [ha]; simp [hd]

theorem State.mem_dueSilence (e : Instr) : e ∈ s.dueSilence ↔ e = .silenceExpiry ∧ DueNow s e := by
  unfold State.dueSilence
  constructor
  · intro h
    split at h
    · rename_i c hd
      split at h
      · cases List.mem_singleton.mp h; exact ⟨rfl, _, hd, by assumption⟩
      · cases h
    · cases h
  · rintro ⟨rfl, c, ha, hd⟩
    rw [ha]; simp [hd]

/-- The list of due events holds exactly the deadline events that have come due. -/
theorem State.mem_due (e : Instr) : e ∈ s.due ↔ DueNow s e := by
  simp only [State.due, List.mem_append, State.mem_dueSettling, State.mem_dueLeases, State.mem_dueGroups,
    State.mem_dueWaits, State.mem_dueTack, State.mem_dueSilence]
  constructor
  · rintro (((((⟨_, _, h⟩ | ⟨_, _, h⟩) | ⟨_, _, h⟩) | ⟨_, _, h⟩) | ⟨_, h⟩) | ⟨_, h⟩) <;> exact h
  · intro h
    cases e <;> first | exact absurd h id | simp_all

/-- The choice among due events is one of them, whatever the free value is. -/
theorem pickDue_mem (now : Instant) (e : Instr) (es : List Instr) : ∃ x ∈ e :: es, pickDue now (e :: es) = [x] := by
  have h : Config.eventChoice now (e :: es).length % (e :: es).length < (e :: es).length :=
    Nat.mod_lt _ (Nat.succ_pos _)
  refine ⟨_, List.getElem_mem h, ?_⟩
  rw [pickDue, List.getElem?_eq_getElem h]
  rfl

end Sys2Proof.Machine
end

