-- ==== Sys2Proof/Laws/Numbers.lean ====
section
/-! SUPPORT. What the three searches answer: the lowest free handle (R19), the next free token (R26) and the next free
outbound number (R156). -/

namespace Sys2Proof.Machine

/-! ### Handles -/

/-- The search for a handle answers the lowest one that no live record holds. -/
theorem freeHandle_lowest {ls : List Lease} {h : Handle} : freeHandle ls = some h ↔ LowestFree ls h := by
  have key : ∀ k : Handle, (!ls.any (fun l => decide (l.handle = k))) = true ↔ ∀ l ∈ ls, l.handle ≠ k := by
    intro k; simp
  have holds : ∀ k : Handle, freeHandle ls = some k → ∀ l ∈ ls, l.handle ≠ k := by
    intro k hf
    have := List.find?_some (p := fun h => !ls.any (fun l => decide (l.handle = h))) hf
    exact (key k).1 this
  have sorted : (List.finRange 64).Pairwise (· < ·) := List.pairwise_lt_finRange 64
  constructor
  · intro hf
    refine ⟨holds h hf, fun k hk => ?_⟩
    by_contra hn
    obtain ⟨_, as, bs, he, hall⟩ := List.find?_eq_some_iff_append.1 hf
    have hmem : k ∈ as ++ h :: bs := he ▸ List.mem_finRange k
    have hlt : ∀ b ∈ h :: bs, h ≤ b := by
      intro b hb
      rcases List.mem_cons.1 hb with rfl | hb
      · exact le_refl _
      · have := he ▸ sorted
        exact le_of_lt ((List.pairwise_cons.1 (List.pairwise_append.1 this).2.1).1 b hb)
    rcases List.mem_append.1 hmem with hk' | hk'
    · have := hall k hk'
      rw [(key k).2 (fun l hl e => hn ⟨l, hl, e⟩)] at this
      cases this
    · exact absurd (hlt k hk') (not_le.2 hk)
  · rintro ⟨hfree, hlow⟩
    have hsome : (freeHandle ls).isSome = true := by
      rw [freeHandle, List.find?_isSome]
      exact ⟨h, List.mem_finRange h, (key h).2 hfree⟩
    obtain ⟨k, hk⟩ := Option.isSome_iff_exists.1 hsome
    have hkfree := holds k hk
    rcases lt_trichotomy k h with hlt | rfl | hlt
    · obtain ⟨l, hl, e⟩ := hlow k hlt
      exact absurd e (hkfree l hl)
    · exact hk
    · obtain ⟨_, as, bs, he, hall⟩ := List.find?_eq_some_iff_append.1 hk
      have hmem : h ∈ as ++ k :: bs := he ▸ List.mem_finRange h
      rcases List.mem_append.1 hmem with hh | hh
      · have := hall h hh
        rw [(key h).2 hfree] at this
        cases this
      · have := he ▸ sorted
        rcases List.mem_cons.1 hh with rfl | hh
        · exact hk
        · exact absurd ((List.pairwise_cons.1 (List.pairwise_append.1 this).2.1).1 h hh) (not_lt.2 hlt.le)

/-- The search finds no handle exactly when the table is full. -/
theorem freeHandle_full {ls : List Lease} : freeHandle ls = none ↔ TableFull ls := by
  simp [freeHandle, TableFull]

/-! ### Outbound numbers -/

/-- If the search for a number ends on a number that an entry carries, entries carry every number it has tried. -/
theorem freeNumber_tried {es : List Entry} : ∀ (fuel : Nat) (n : Byte),
    freeNumber es fuel n ∈ es.map Entry.seq → ∀ k ≤ fuel, n + BitVec.ofNat 8 k ∈ es.map Entry.seq
  | 0, n, h, k, hk => by
    obtain rfl : k = 0 := Nat.le_zero.1 hk
    simpa [freeNumber] using h
  | fuel + 1, n, h, k, hk => by
    rw [freeNumber] at h
    split at h
    · rename_i ha
      cases k with
      | zero =>
        obtain ⟨e, he, hs⟩ := List.any_eq_true.1 ha
        exact List.mem_map.2 ⟨e, he, by simpa using hs⟩
      | succ k =>
        have := freeNumber_tried fuel (n + 1) h k (Nat.le_of_succ_le_succ hk)
        have e : n + BitVec.ofNat 8 (k + 1) = n + 1 + BitVec.ofNat 8 k := by
          apply BitVec.eq_of_toNat_eq
          simp [BitVec.toNat_add]
          omega
        rwa [e]
    · rename_i ha
      obtain ⟨e, he, hs⟩ := List.mem_map.1 h
      exact absurd (List.any_eq_true.2 ⟨e, he, by simpa using hs⟩) ha

/-- No entry carries the number that the next entry takes. -/
theorem OutboundQueue.nextNumber_free (q : OutboundQueue) (hl : q.entries.length < 256) :
    q.nextNumber ∉ q.entries.map Entry.seq := by
  intro h
  have all := freeNumber_tried q.entries.length q.counter h
  have sub : ((Finset.range (q.entries.length + 1)).image (fun k => q.counter + BitVec.ofNat 8 k)) ⊆
      (q.entries.map Entry.seq).toFinset := by
    intro b hb
    obtain ⟨k, hk, rfl⟩ := Finset.mem_image.1 hb
    exact List.mem_toFinset.2 (all k (Nat.lt_succ_iff.1 (Finset.mem_range.1 hk)))
  have inj : Set.InjOn (fun k => q.counter + BitVec.ofNat 8 k) (Finset.range (q.entries.length + 1) : Set Nat) := by
    intro a ha b hb e
    have ha := Finset.mem_range.1 (Finset.mem_coe.1 ha)
    have hb := Finset.mem_range.1 (Finset.mem_coe.1 hb)
    have e : BitVec.ofNat 8 a = BitVec.ofNat 8 b := by simpa using e
    have := congrArg BitVec.toNat e
    simp only [BitVec.toNat_ofNat] at this
    omega
  have c := Finset.card_le_card sub
  rw [Finset.card_image_of_injOn inj, Finset.card_range] at c
  have := List.toFinset_card_le (q.entries.map Entry.seq)
  rw [List.length_map] at this
  omega

/-! ### Tokens -/

theorem advanceToken_ne_zero {t : Token} : advanceToken t ≠ 0 := by
  unfold advanceToken
  split
  · decide
  · rename_i h
    intro e
    apply h
    have := congrArg BitVec.toNat e
    apply BitVec.eq_of_toNat_eq
    simp [BitVec.toNat_add] at this ⊢
    omega

/-- The token counter runs round the 4,294,967,295 values from 1 on. -/
theorem advanceToken_toNat {t : Token} (h : t ≠ 0) :
    (advanceToken t).toNat - 1 = (t.toNat - 1 + 1) % 4294967295 := by
  have h0 : t.toNat ≠ 0 := fun e => h (BitVec.eq_of_toNat_eq (by simpa using e))
  unfold advanceToken
  split
  · rename_i e; subst e; rfl
  · rename_i e
    have h1 : t.toNat ≠ 4294967295 := fun k => e (BitVec.eq_of_toNat_eq (by simpa using k))
    have := t.isLt
    simp only [BitVec.toNat_add]
    simp
    omega

theorem advanceToken_iterate {t : Token} (h : t ≠ 0) (k : Nat) :
    advanceToken^[k] t ≠ 0 ∧ (advanceToken^[k] t).toNat - 1 = (t.toNat - 1 + k) % 4294967295 := by
  induction k with
  | zero =>
    have h0 : t.toNat ≠ 0 := fun e => h (BitVec.eq_of_toNat_eq (by simpa using e))
    have := t.isLt
    exact ⟨h, by simp; omega⟩
  | succ k ih =>
    rw [Function.iterate_succ_apply']
    refine ⟨advanceToken_ne_zero, ?_⟩
    rw [advanceToken_toNat ih.1, ih.2]
    omega

/-- If the search for a token ends on one that a live lease carries, live leases carry every token it has tried. -/
theorem freeToken_tried {ls : List Lease} : ∀ (fuel : Nat) (t : Token),
    freeToken ls fuel t ∈ ls.map Lease.token → ∀ k ≤ fuel, advanceToken^[k] t ∈ ls.map Lease.token
  | 0, t, h, k, hk => by
    obtain rfl : k = 0 := Nat.le_zero.1 hk
    simpa [freeToken] using h
  | fuel + 1, t, h, k, hk => by
    rw [freeToken] at h
    split at h
    · rename_i ha
      cases k with
      | zero =>
        obtain ⟨l, hl, hs⟩ := List.any_eq_true.1 ha
        exact List.mem_map.2 ⟨l, hl, by simpa using hs⟩
      | succ k =>
        rw [Function.iterate_succ_apply]
        exact freeToken_tried fuel _ h k (Nat.le_of_succ_le_succ hk)
    · rename_i ha
      obtain ⟨l, hl, hs⟩ := List.mem_map.1 h
      exact absurd (List.any_eq_true.2 ⟨l, hl, by simpa using hs⟩) ha

theorem freeToken_ne_zero {ls : List Lease} : ∀ (fuel : Nat) {t : Token}, t ≠ 0 → freeToken ls fuel t ≠ 0
  | 0, _, h => h
  | fuel + 1, t, h => by
    rw [freeToken]
    split
    · exact freeToken_ne_zero fuel advanceToken_ne_zero
    · exact h

/-- No live lease carries the token that the next grant takes, and it is not 0. -/
theorem LeaseManager.nextToken_free (m : LeaseManager) (hl : m.leases.length ≤ 64) (h0 : m.tokenCounter ≠ 0) :
    m.nextToken ∉ m.leases.map Lease.token ∧ m.nextToken ≠ 0 := by
  refine ⟨fun h => ?_, freeToken_ne_zero _ h0⟩
  have all := freeToken_tried m.leases.length m.tokenCounter h
  have sub : ((Finset.range (m.leases.length + 1)).image (fun k => advanceToken^[k] m.tokenCounter)) ⊆
      (m.leases.map Lease.token).toFinset := by
    intro b hb
    obtain ⟨k, hk, rfl⟩ := Finset.mem_image.1 hb
    exact List.mem_toFinset.2 (all k (Nat.lt_succ_iff.1 (Finset.mem_range.1 hk)))
  have inj : Set.InjOn (fun k => advanceToken^[k] m.tokenCounter) (Finset.range (m.leases.length + 1) : Set Nat) := by
    intro a ha b hb e
    have ha := Finset.mem_range.1 (Finset.mem_coe.1 ha)
    have hb := Finset.mem_range.1 (Finset.mem_coe.1 hb)
    have := congrArg (fun t : Token => t.toNat - 1) e
    simp only [(advanceToken_iterate h0 _).2] at this
    omega
  have c := Finset.card_le_card sub
  rw [Finset.card_image_of_injOn inj, Finset.card_range] at c
  have := List.toFinset_card_le (m.leases.map Lease.token)
  rw [List.length_map] at this
  omega

end Sys2Proof.Machine
end

