-- ==== Sys2Proof/Laws/State.lean ====
section
/-! SUPPORT. What each named update of the state leaves alone: one lemma per update, an equation for every block it
does not touch, all true by rfl. -/

namespace Sys2Proof.Machine

variable (s : State)

/-- Reaching an instant changes the clock alone. -/
@[simp] theorem State.reach_frame (t : Instant) :
    (s.reach t).pending = s.pending ∧ (s.reach t).link = s.link ∧ (s.reach t).sessions = s.sessions ∧
    (s.reach t).lm = s.lm ∧ (s.reach t).bp = s.bp ∧ (s.reach t).slots = s.slots ∧
    (s.reach t).bookings = s.bookings ∧ (s.reach t).delivery = s.delivery ∧ (s.reach t).panel = s.panel :=
  ⟨rfl, rfl, rfl, rfl, rfl, rfl, rfl, rfl, rfl⟩

/-- Changing a session record changes the Session Table alone. -/
@[simp] theorem State.mapSession_frame (h : Addr) (f : Session → Session) :
    (s.mapSession h f).pending = s.pending ∧ (s.mapSession h f).now = s.now ∧
    (s.mapSession h f).link = s.link ∧ (s.mapSession h f).lm = s.lm ∧ (s.mapSession h f).bp = s.bp ∧
    (s.mapSession h f).slots = s.slots ∧ (s.mapSession h f).bookings = s.bookings ∧
    (s.mapSession h f).delivery = s.delivery ∧ (s.mapSession h f).panel = s.panel :=
  ⟨rfl, rfl, rfl, rfl, rfl, rfl, rfl, rfl, rfl⟩

/-- Changing an Outbound Queue changes the session records alone. -/
@[simp] theorem State.mapQueue_frame (h : Addr) (f : OutboundQueue → OutboundQueue) :
    (s.mapQueue h f).pending = s.pending ∧ (s.mapQueue h f).now = s.now ∧ (s.mapQueue h f).link = s.link ∧
    (s.mapQueue h f).lm = s.lm ∧ (s.mapQueue h f).bp = s.bp ∧ (s.mapQueue h f).slots = s.slots ∧
    (s.mapQueue h f).bookings = s.bookings ∧ (s.mapQueue h f).delivery = s.delivery ∧
    (s.mapQueue h f).panel = s.panel :=
  ⟨rfl, rfl, rfl, rfl, rfl, rfl, rfl, rfl, rfl⟩

/-- Handing a notice changes the session records alone. -/
@[simp] theorem State.handNotice_frame (h : Addr) (n : Notice) :
    (s.handNotice h n).pending = s.pending ∧ (s.handNotice h n).now = s.now ∧
    (s.handNotice h n).link = s.link ∧ (s.handNotice h n).lm = s.lm ∧ (s.handNotice h n).bp = s.bp ∧
    (s.handNotice h n).slots = s.slots ∧ (s.handNotice h n).bookings = s.bookings ∧
    (s.handNotice h n).delivery = s.delivery ∧ (s.handNotice h n).panel = s.panel :=
  ⟨rfl, rfl, rfl, rfl, rfl, rfl, rfl, rfl, rfl⟩

/-- Handing a completion changes the session records alone. -/
@[simp] theorem State.handCompletion_frame (h : Addr) (tag : Tag) (c : Completion) :
    (s.handCompletion h tag c).pending = s.pending ∧ (s.handCompletion h tag c).now = s.now ∧
    (s.handCompletion h tag c).link = s.link ∧ (s.handCompletion h tag c).lm = s.lm ∧
    (s.handCompletion h tag c).bp = s.bp ∧ (s.handCompletion h tag c).slots = s.slots ∧
    (s.handCompletion h tag c).bookings = s.bookings ∧ (s.handCompletion h tag c).delivery = s.delivery ∧
    (s.handCompletion h tag c).panel = s.panel :=
  ⟨rfl, rfl, rfl, rfl, rfl, rfl, rfl, rfl, rfl⟩

/-- Forming a response changes the Link Interface alone. -/
@[simp] theorem State.pushResponse_frame (r : Response) :
    (s.pushResponse r).pending = s.pending ∧ (s.pushResponse r).now = s.now ∧
    (s.pushResponse r).sessions = s.sessions ∧ (s.pushResponse r).lm = s.lm ∧ (s.pushResponse r).bp = s.bp ∧
    (s.pushResponse r).slots = s.slots ∧ (s.pushResponse r).bookings = s.bookings ∧
    (s.pushResponse r).delivery = s.delivery ∧ (s.pushResponse r).panel = s.panel :=
  ⟨rfl, rfl, rfl, rfl, rfl, rfl, rfl, rfl, rfl⟩

/-- The transmitter going idle changes the Link Interface alone. -/
@[simp] theorem State.endTx_frame :
    (s.endTx).pending = s.pending ∧ (s.endTx).now = s.now ∧ (s.endTx).sessions = s.sessions ∧
    (s.endTx).lm = s.lm ∧ (s.endTx).bp = s.bp ∧ (s.endTx).slots = s.slots ∧ (s.endTx).bookings = s.bookings ∧
    (s.endTx).delivery = s.delivery ∧ (s.endTx).panel = s.panel :=
  ⟨rfl, rfl, rfl, rfl, rfl, rfl, rfl, rfl, rfl⟩

/-- The end of a reception changes the Link Interface alone. -/
@[simp] theorem State.endReception_frame :
    (s.endReception).pending = s.pending ∧ (s.endReception).now = s.now ∧
    (s.endReception).sessions = s.sessions ∧ (s.endReception).lm = s.lm ∧ (s.endReception).bp = s.bp ∧
    (s.endReception).slots = s.slots ∧ (s.endReception).bookings = s.bookings ∧
    (s.endReception).delivery = s.delivery ∧ (s.endReception).panel = s.panel :=
  ⟨rfl, rfl, rfl, rfl, rfl, rfl, rfl, rfl, rfl⟩

/-- Starting a response changes the Link Interface alone. -/
@[simp] theorem State.startResponse_frame (r : Response) (rest : List Response) :
    (s.startResponse r rest).pending = s.pending ∧ (s.startResponse r rest).now = s.now ∧
    (s.startResponse r rest).sessions = s.sessions ∧ (s.startResponse r rest).lm = s.lm ∧
    (s.startResponse r rest).bp = s.bp ∧ (s.startResponse r rest).slots = s.slots ∧
    (s.startResponse r rest).bookings = s.bookings ∧ (s.startResponse r rest).delivery = s.delivery ∧
    (s.startResponse r rest).panel = s.panel :=
  ⟨rfl, rfl, rfl, rfl, rfl, rfl, rfl, rfl, rfl⟩

/-- A grant changes the Lease Manager alone. -/
@[simp] theorem State.addLease_frame (l : Lease) :
    (s.addLease l).pending = s.pending ∧ (s.addLease l).now = s.now ∧ (s.addLease l).link = s.link ∧
    (s.addLease l).sessions = s.sessions ∧ (s.addLease l).bp = s.bp ∧ (s.addLease l).slots = s.slots ∧
    (s.addLease l).bookings = s.bookings ∧ (s.addLease l).delivery = s.delivery ∧
    (s.addLease l).panel = s.panel :=
  ⟨rfl, rfl, rfl, rfl, rfl, rfl, rfl, rfl, rfl⟩

/-- Removing a lease changes the Lease Manager alone. -/
@[simp] theorem State.dropLease_frame (h : Handle) :
    (s.dropLease h).pending = s.pending ∧ (s.dropLease h).now = s.now ∧ (s.dropLease h).link = s.link ∧
    (s.dropLease h).sessions = s.sessions ∧ (s.dropLease h).bp = s.bp ∧ (s.dropLease h).slots = s.slots ∧
    (s.dropLease h).bookings = s.bookings ∧ (s.dropLease h).delivery = s.delivery ∧
    (s.dropLease h).panel = s.panel :=
  ⟨rfl, rfl, rfl, rfl, rfl, rfl, rfl, rfl, rfl⟩

/-- Renewing a lease changes the Lease Manager alone. -/
@[simp] theorem State.renewLease_frame (h : Handle) (t : Word16) :
    (s.renewLease h t).pending = s.pending ∧ (s.renewLease h t).now = s.now ∧
    (s.renewLease h t).link = s.link ∧ (s.renewLease h t).sessions = s.sessions ∧
    (s.renewLease h t).bp = s.bp ∧ (s.renewLease h t).slots = s.slots ∧
    (s.renewLease h t).bookings = s.bookings ∧ (s.renewLease h t).delivery = s.delivery ∧
    (s.renewLease h t).panel = s.panel :=
  ⟨rfl, rfl, rfl, rfl, rfl, rfl, rfl, rfl, rfl⟩

/-- A new wait record changes the Lease Manager alone. -/
@[simp] theorem State.addWait_frame (w : Wait) :
    (s.addWait w).pending = s.pending ∧ (s.addWait w).now = s.now ∧ (s.addWait w).link = s.link ∧
    (s.addWait w).sessions = s.sessions ∧ (s.addWait w).bp = s.bp ∧ (s.addWait w).slots = s.slots ∧
    (s.addWait w).bookings = s.bookings ∧ (s.addWait w).delivery = s.delivery ∧
    (s.addWait w).panel = s.panel :=
  ⟨rfl, rfl, rfl, rfl, rfl, rfl, rfl, rfl, rfl⟩

/-- Removing a wait record changes the Lease Manager alone. -/
@[simp] theorem State.dropWait_frame (h : Addr) (tag : Tag) :
    (s.dropWait h tag).pending = s.pending ∧ (s.dropWait h tag).now = s.now ∧
    (s.dropWait h tag).link = s.link ∧ (s.dropWait h tag).sessions = s.sessions ∧
    (s.dropWait h tag).bp = s.bp ∧ (s.dropWait h tag).slots = s.slots ∧
    (s.dropWait h tag).bookings = s.bookings ∧ (s.dropWait h tag).delivery = s.delivery ∧
    (s.dropWait h tag).panel = s.panel :=
  ⟨rfl, rfl, rfl, rfl, rfl, rfl, rfl, rfl, rfl⟩

/-- Changing a slot record changes the Slot Directory alone. -/
@[simp] theorem State.setSlot_frame (i : SlotNo) (f : SlotRecord → SlotRecord) :
    (s.setSlot i f).pending = s.pending ∧ (s.setSlot i f).now = s.now ∧ (s.setSlot i f).link = s.link ∧
    (s.setSlot i f).sessions = s.sessions ∧ (s.setSlot i f).lm = s.lm ∧ (s.setSlot i f).bp = s.bp ∧
    (s.setSlot i f).bookings = s.bookings ∧ (s.setSlot i f).delivery = s.delivery ∧
    (s.setSlot i f).panel = s.panel :=
  ⟨rfl, rfl, rfl, rfl, rfl, rfl, rfl, rfl, rfl⟩

/-- Starting an identification changes the Sequencer alone. -/
@[simp] theorem State.startIdentification_frame (i : SlotNo) (rest : List SlotNo) :
    (s.startIdentification i rest).pending = s.pending ∧ (s.startIdentification i rest).now = s.now ∧
    (s.startIdentification i rest).link = s.link ∧ (s.startIdentification i rest).sessions = s.sessions ∧
    (s.startIdentification i rest).lm = s.lm ∧ (s.startIdentification i rest).slots = s.slots ∧
    (s.startIdentification i rest).bookings = s.bookings ∧
    (s.startIdentification i rest).delivery = s.delivery ∧ (s.startIdentification i rest).panel = s.panel :=
  ⟨rfl, rfl, rfl, rfl, rfl, rfl, rfl, rfl, rfl⟩

/-- Starting an access cycle changes the Sequencer alone. -/
@[simp] theorem State.startAccess_frame (e : AccessEntry) (l : Lease) :
    (s.startAccess e l).pending = s.pending ∧ (s.startAccess e l).now = s.now ∧
    (s.startAccess e l).link = s.link ∧ (s.startAccess e l).sessions = s.sessions ∧
    (s.startAccess e l).lm = s.lm ∧ (s.startAccess e l).slots = s.slots ∧
    (s.startAccess e l).bookings = s.bookings ∧ (s.startAccess e l).delivery = s.delivery ∧
    (s.startAccess e l).panel = s.panel :=
  ⟨rfl, rfl, rfl, rfl, rfl, rfl, rfl, rfl, rfl⟩

/-- Freeing the backplane changes the Sequencer alone. -/
@[simp] theorem State.freeBackplane_frame :
    (s.freeBackplane).pending = s.pending ∧ (s.freeBackplane).now = s.now ∧ (s.freeBackplane).link = s.link ∧
    (s.freeBackplane).sessions = s.sessions ∧ (s.freeBackplane).lm = s.lm ∧
    (s.freeBackplane).slots = s.slots ∧ (s.freeBackplane).bookings = s.bookings ∧
    (s.freeBackplane).delivery = s.delivery ∧ (s.freeBackplane).panel = s.panel :=
  ⟨rfl, rfl, rfl, rfl, rfl, rfl, rfl, rfl, rfl⟩

/-- A withdrawal changes the Sequencer alone. -/
@[simp] theorem State.withdraw_frame (i : SlotNo) :
    (s.withdraw i).pending = s.pending ∧ (s.withdraw i).now = s.now ∧ (s.withdraw i).link = s.link ∧
    (s.withdraw i).sessions = s.sessions ∧ (s.withdraw i).lm = s.lm ∧ (s.withdraw i).slots = s.slots ∧
    (s.withdraw i).bookings = s.bookings ∧ (s.withdraw i).delivery = s.delivery ∧
    (s.withdraw i).panel = s.panel :=
  ⟨rfl, rfl, rfl, rfl, rfl, rfl, rfl, rfl, rfl⟩

/-- Booking changes the Booking Table alone. -/
@[simp] theorem State.putBooking_frame (h : Addr) (i : SlotNo) (m : BookingMode) :
    (s.putBooking h i m).pending = s.pending ∧ (s.putBooking h i m).now = s.now ∧
    (s.putBooking h i m).link = s.link ∧ (s.putBooking h i m).sessions = s.sessions ∧
    (s.putBooking h i m).lm = s.lm ∧ (s.putBooking h i m).bp = s.bp ∧ (s.putBooking h i m).slots = s.slots ∧
    (s.putBooking h i m).delivery = s.delivery ∧ (s.putBooking h i m).panel = s.panel :=
  ⟨rfl, rfl, rfl, rfl, rfl, rfl, rfl, rfl, rfl⟩

/-- Arming changes the Booking Table alone. -/
@[simp] theorem State.armBooking_frame (h : Addr) (i : SlotNo) :
    (s.armBooking h i).pending = s.pending ∧ (s.armBooking h i).now = s.now ∧
    (s.armBooking h i).link = s.link ∧ (s.armBooking h i).sessions = s.sessions ∧
    (s.armBooking h i).lm = s.lm ∧ (s.armBooking h i).bp = s.bp ∧ (s.armBooking h i).slots = s.slots ∧
    (s.armBooking h i).delivery = s.delivery ∧ (s.armBooking h i).panel = s.panel :=
  ⟨rfl, rfl, rfl, rfl, rfl, rfl, rfl, rfl, rfl⟩

/-- Configuring changes the Panel Block alone. -/
@[simp] theorem State.setConfig_frame (c : ConfigRecord) :
    (s.setConfig c).pending = s.pending ∧ (s.setConfig c).now = s.now ∧ (s.setConfig c).link = s.link ∧
    (s.setConfig c).sessions = s.sessions ∧ (s.setConfig c).lm = s.lm ∧ (s.setConfig c).bp = s.bp ∧
    (s.setConfig c).slots = s.slots ∧ (s.setConfig c).bookings = s.bookings ∧
    (s.setConfig c).delivery = s.delivery :=
  ⟨rfl, rfl, rfl, rfl, rfl, rfl, rfl, rfl, rfl⟩

/-- The service switch changes the Panel Block alone. -/
@[simp] theorem State.setService_frame (p : Service) :
    (s.setService p).pending = s.pending ∧ (s.setService p).now = s.now ∧ (s.setService p).link = s.link ∧
    (s.setService p).sessions = s.sessions ∧ (s.setService p).lm = s.lm ∧ (s.setService p).bp = s.bp ∧
    (s.setService p).slots = s.slots ∧ (s.setService p).bookings = s.bookings ∧
    (s.setService p).delivery = s.delivery :=
  ⟨rfl, rfl, rfl, rfl, rfl, rfl, rfl, rfl, rfl⟩

/-- Committing a clear changes the Panel Block alone. -/
@[simp] theorem State.commitClear_frame :
    (s.commitClear).pending = s.pending ∧ (s.commitClear).now = s.now ∧ (s.commitClear).link = s.link ∧
    (s.commitClear).sessions = s.sessions ∧ (s.commitClear).lm = s.lm ∧ (s.commitClear).bp = s.bp ∧
    (s.commitClear).slots = s.slots ∧ (s.commitClear).bookings = s.bookings ∧
    (s.commitClear).delivery = s.delivery :=
  ⟨rfl, rfl, rfl, rfl, rfl, rfl, rfl, rfl, rfl⟩

/-- Reading the address switches changes the Panel Block alone. -/
@[simp] theorem State.readSwitches_frame (sw : Switches) :
    (s.readSwitches sw).pending = s.pending ∧ (s.readSwitches sw).now = s.now ∧
    (s.readSwitches sw).link = s.link ∧ (s.readSwitches sw).sessions = s.sessions ∧
    (s.readSwitches sw).lm = s.lm ∧ (s.readSwitches sw).bp = s.bp ∧ (s.readSwitches sw).slots = s.slots ∧
    (s.readSwitches sw).bookings = s.bookings ∧ (s.readSwitches sw).delivery = s.delivery :=
  ⟨rfl, rfl, rfl, rfl, rfl, rfl, rfl, rfl, rfl⟩

/-- The end of an entry's transmission changes the Delivery Unit alone. -/
@[simp] theorem State.entryEnded_frame (h : Addr) (o : Bool) :
    (s.entryEnded h o).pending = s.pending ∧ (s.entryEnded h o).now = s.now ∧
    (s.entryEnded h o).link = s.link ∧ (s.entryEnded h o).sessions = s.sessions ∧
    (s.entryEnded h o).lm = s.lm ∧ (s.entryEnded h o).bp = s.bp ∧ (s.entryEnded h o).slots = s.slots ∧
    (s.entryEnded h o).bookings = s.bookings ∧ (s.entryEnded h o).panel = s.panel :=
  ⟨rfl, rfl, rfl, rfl, rfl, rfl, rfl, rfl, rfl⟩

/-- The loss of an entry to contention changes the session records and the attempt alone. -/
@[simp] theorem State.entryLost_frame (o : Bool) :
    (s.entryLost o).pending = s.pending ∧ (s.entryLost o).now = s.now ∧ (s.entryLost o).link = s.link ∧
    (s.entryLost o).lm = s.lm ∧ (s.entryLost o).bp = s.bp ∧ (s.entryLost o).slots = s.slots ∧
    (s.entryLost o).bookings = s.bookings ∧ (s.entryLost o).delivery.pointer = s.delivery.pointer ∧
    (s.entryLost o).panel = s.panel := by
  unfold State.entryLost; split <;> simp

/-! ### What the updates write -/

@[simp] theorem State.reach_now (t : Instant) : (s.reach t).now = max s.now t := rfl

@[simp] theorem State.addLease_leases (l : Lease) :
    (s.addLease l).lm.leases = s.lm.leases ++ [l] ∧ (s.addLease l).lm.waits = s.lm.waits ∧
    (s.addLease l).lm.tokenCounter = advanceToken l.token ∧
    (s.addLease l).lm.arrivalCounter = s.lm.arrivalCounter :=
  ⟨rfl, rfl, rfl, rfl⟩

@[simp] theorem State.dropLease_leases (h : Handle) :
    (s.dropLease h).lm.leases = s.lm.leases.filter (fun l => decide (l.handle ≠ h)) ∧
    (s.dropLease h).lm.waits = s.lm.waits ∧ (s.dropLease h).lm.tokenCounter = s.lm.tokenCounter ∧
    (s.dropLease h).lm.arrivalCounter = s.lm.arrivalCounter :=
  ⟨rfl, rfl, rfl, rfl⟩

@[simp] theorem State.dropWait_leases (h : Addr) (tag : Tag) :
    (s.dropWait h tag).lm.leases = s.lm.leases ∧
    (s.dropWait h tag).lm.tokenCounter = s.lm.tokenCounter ∧
    (s.dropWait h tag).lm.arrivalCounter = s.lm.arrivalCounter :=
  ⟨rfl, rfl, rfl⟩

@[simp] theorem State.pushResponse_link (r : Response) :
    (s.pushResponse r).link.receive = s.link.receive ∧ (s.pushResponse r).link.resetLine = s.link.resetLine ∧
    (s.pushResponse r).link.tx = s.link.tx :=
  ⟨rfl, rfl, rfl⟩

/-- A response of the first group joins at the end. -/
@[simp] theorem State.pushResponse_taken (r : Response) (hr : r.taken = true) :
    (s.pushResponse r).link.responses = s.link.responses ++ [r] := by
  simp [State.pushResponse, hr]

@[simp] theorem State.endReception_link :
    s.endReception.link.receive = .idle ∧ s.endReception.link.resetLine = s.link.resetLine ∧
    s.endReception.link.tx = s.link.tx ∧ s.endReception.link.responses = s.link.responses :=
  ⟨rfl, rfl, rfl, rfl⟩

@[simp] theorem State.setSlot_same (i : SlotNo) (f : SlotRecord → SlotRecord) :
    (s.setSlot i f).slots[i] = f s.slots[i] := by
  simp [State.setSlot]

@[simp] theorem State.setSlot_other (i j : SlotNo) (f : SlotRecord → SlotRecord) (h : i ≠ j) :
    (s.setSlot i f).slots[j] = s.slots[j] := by
  have : i.val ≠ j.val := fun e => h (Fin.ext e)
  simp [State.setSlot, this]

/-- The session of a host after its record has been changed. -/
@[simp] theorem State.mapSession_session? (h : Addr) (f : Session → Session) (hf : ∀ x, (f x).host = x.host)
    (k : Addr) : (s.mapSession h f).session? k = (s.session? k).map (fun x => if x.host = h then f x else x) := by
  simp only [State.session?, State.mapSession]
  induction s.sessions with
  | nil => rfl
  | cons x xs ih =>
    have hx : (if x.host = h then f x else x).host = x.host := by split <;> simp [hf]
    by_cases hk : x.host = k
    · subst hk
      simp only [List.map_cons, List.find?_cons, hx, decide_true, Option.map_some]
    · simp only [List.map_cons, List.find?_cons, hx, hk, decide_false]
      exact ih

/-- A session found under a host has that host. -/
theorem State.session?_host {h : Addr} {x : Session} (hx : s.session? h = some x) : x.host = h := by
  simpa using List.find?_some hx

/-- A session found stands in the table. -/
theorem State.session?_mem {h : Addr} {x : Session} (hx : s.session? h = some x) : x ∈ s.sessions :=
  List.mem_of_find?_eq_some hx

/-- The other hosts' sessions are not changed. -/
theorem State.mapSession_other (h : Addr) (f : Session → Session) (hf : ∀ x, (f x).host = x.host) (k : Addr)
    (hk : k ≠ h) : (s.mapSession h f).session? k = s.session? k := by
  rw [State.mapSession_session? s h f hf k]
  cases hx : s.session? k with
  | none => rfl
  | some x =>
    have : x.host ≠ h := fun e => hk ((s.session?_host hx).symm.trans e)
    simp [this]

end Sys2Proof.Machine
end

