-- ==== Sys2Proof/Laws/Ops.lean ====
section
/-! SUPPORT. What each shared operation can do, said once: the blocks it leaves alone, how a frame is taken as a new
request, what forming an answer leaves behind, and what a walk does to the tables. -/

namespace Sys2Proof.Machine

variable (s : State)

/-! ### Answers -/

/-- Forming an answer changes the Link Interface and the session record only. -/
@[simp] theorem State.answerWith_frame (h : Addr) (st : Status) (p : List Byte) (c : Bool) :
    (s.answerWith h st p c).pending = s.pending ∧ (s.answerWith h st p c).now = s.now ∧
    (s.answerWith h st p c).lm = s.lm ∧ (s.answerWith h st p c).bp = s.bp ∧
    (s.answerWith h st p c).slots = s.slots ∧ (s.answerWith h st p c).bookings = s.bookings ∧
    (s.answerWith h st p c).delivery = s.delivery ∧ (s.answerWith h st p c).panel = s.panel := by
  unfold State.answerWith; split <;> simp

/-- Forming an answer changes the Link Interface and the session record only. -/
@[simp] theorem State.answer_frame (h : Addr) (st : Status) (p : List Byte) :
    (s.answer h st p).pending = s.pending ∧ (s.answer h st p).now = s.now ∧ (s.answer h st p).lm = s.lm ∧
    (s.answer h st p).bp = s.bp ∧ (s.answer h st p).slots = s.slots ∧
    (s.answer h st p).bookings = s.bookings ∧ (s.answer h st p).delivery = s.delivery ∧
    (s.answer h st p).panel = s.panel := by
  simp [State.answer]

/-- Forming a FAULT changes the Link Interface and the session record only. -/
@[simp] theorem State.answerFault_frame (h : Addr) (c : FaultCode) (i : Option FieldIndex) :
    (s.answerFault h c i).pending = s.pending ∧ (s.answerFault h c i).now = s.now ∧
    (s.answerFault h c i).lm = s.lm ∧ (s.answerFault h c i).bp = s.bp ∧
    (s.answerFault h c i).slots = s.slots ∧ (s.answerFault h c i).bookings = s.bookings ∧
    (s.answerFault h c i).delivery = s.delivery ∧ (s.answerFault h c i).panel = s.panel := by
  simp [State.answerFault]

/-- Turning a request away changes the Link Interface and the session record only. -/
@[simp] theorem State.deny_frame (h : Addr) (d : Denial) :
    (s.deny h d).pending = s.pending ∧ (s.deny h d).now = s.now ∧ (s.deny h d).lm = s.lm ∧
    (s.deny h d).bp = s.bp ∧ (s.deny h d).slots = s.slots ∧ (s.deny h d).bookings = s.bookings ∧
    (s.deny h d).delivery = s.delivery ∧ (s.deny h d).panel = s.panel := by
  cases d <;> simp [State.deny]

/-- A response of the second group changes the Link Interface only. -/
@[simp] theorem State.reply_frame (h : Addr) (n : Byte) (st : Status) (p : List Byte) (o : Owner) :
    (s.reply h n st p o).pending = s.pending ∧ (s.reply h n st p o).now = s.now ∧
    (s.reply h n st p o).sessions = s.sessions ∧ (s.reply h n st p o).lm = s.lm ∧
    (s.reply h n st p o).bp = s.bp ∧ (s.reply h n st p o).slots = s.slots ∧
    (s.reply h n st p o).bookings = s.bookings ∧ (s.reply h n st p o).delivery = s.delivery ∧
    (s.reply h n st p o).panel = s.panel := by
  simp [State.reply]

/-- Forming an answer leaves the transmitter, the receive state and the reset line alone. -/
@[simp] theorem State.answerWith_link (h : Addr) (st : Status) (p : List Byte) (c : Bool) :
    (s.answerWith h st p c).link.tx = s.link.tx ∧ (s.answerWith h st p c).link.receive = s.link.receive ∧
    (s.answerWith h st p c).link.resetLine = s.link.resetLine := by
  unfold State.answerWith; split <;> simp

/-- What the answer to an open session's request leaves behind: the stored response, the end of the in-flight state for
DEFERRED, and the response itself at the end of those formed. -/
theorem State.answerWith_session {h : Addr} {x : Session} (hx : s.session? h = some x) (st : Status) (p : List Byte)
    (c : Bool) :
    (s.answerWith h st p c).session? h = some (x.answered st p) ∧
    (s.answerWith h st p c).link.responses = s.link.responses ++
      [{ host := h, seq := x.lastSeq, status := st, payload := p, taken := true, owner := .session, clears := c }] := by
  have hh := s.session?_host hx
  constructor
  · have h1 : (s.answerWith h st p c).session? h =
        (s.mapSession h (fun x => x.answered st p)).session? h := by
      simp only [State.answerWith, hx]; rfl
    rw [h1, State.mapSession_session? s h (fun x => x.answered st p) (fun _ => rfl), hx]
    simp [hh]
  · simp [State.answerWith, hx]

/-- The other sessions' records are not touched by an answer. -/
theorem State.answerWith_other (h : Addr) (st : Status) (p : List Byte) (c : Bool) :
    OthersSame h s (s.answerWith h st p c) := by
  intro k hk
  unfold State.answerWith
  split
  · rfl
  · exact State.mapSession_other s h (fun x => x.answered st p) (fun _ => rfl) k hk

/-! ### Taking a frame -/

/-- An accepted frame is taken with the receive state IDLE and its host's session resumed. -/
theorem State.takeFrame_accepts {k kind : Byte} {f : Frame} (ha : Accepts s k kind f)
    (take : Addr → State → State) :
    s.takeFrame k kind f take =
      take (frameHost f) (s.endReception.mapSession (frameHost f) Session.resume) := by
  simp only [State.takeFrame, ha.receives, if_true, ha.short, ha.passes, and_self]
  rfl

/-- A frame that fails a test only ends the reception. -/
theorem State.takeFrame_fails {k kind : Byte} {f : Frame} (hr : s.receives = true)
    (hf : accepted s.panel.nodeAddress k kind f = false) (take : Addr → State → State) :
    s.takeFrame k kind f take = s.endReception := by
  simp [State.takeFrame, hr, hf, State.endReception]

/-- A frame that the link cannot take leaves the state as it is. -/
theorem State.takeFrame_deaf {k kind : Byte} {f : Frame} (hr : s.receives = false) (take : Addr → State → State) :
    s.takeFrame k kind f take = s := by
  simp [State.takeFrame, hr]

@[simp] theorem Session.resume_fields (x : Session) :
    x.resume.host = x.host ∧ x.resume.lastSeq = x.lastSeq ∧ x.resume.inFlight = x.inFlight ∧
    x.resume.lastKind = x.lastKind ∧ x.resume.stored = x.stored ∧ x.resume.cls = x.cls ∧ x.resume.tags = x.tags ∧
    x.resume.fault = x.fault := by
  unfold Session.resume; split <;> simp

/-- A new request is carried out in the state `taking`. -/
theorem State.takeRequest_new {kind : Byte} {f : Frame} {x : Session} (hn : NewRequest s kind f x)
    (other run : Addr → State → State) :
    s.takeRequest kind f other run = run (frameHost f) (s.taking kind f) := by
  have hh := s.session?_host hn.found
  have hx : (s.endReception.mapSession (frameHost f) Session.resume).session? (frameHost f) = some x.resume := by
    rw [State.mapSession_session? _ _ _ (fun x => (Session.resume_fields x).1)]
    have : s.endReception.session? (frameHost f) = some x := hn.found
    simp [this, hh]
  simp only [State.takeRequest, s.takeFrame_accepts hn.toAccepts, hx, State.sequenced, Session.resume_fields, hn.next,
    if_true, hn.free, hh]
  simp [State.taking, hn.next]

/-- The record of a session whose new request is carried out. -/
theorem State.taking_session {kind : Byte} {f : Frame} {x : Session} (hn : NewRequest s kind f x) :
    (s.taking kind f).session? (frameHost f) = some (x.resume.accept f.seq kind) := by
  have hh := s.session?_host hn.found
  have : s.endReception.session? (frameHost f) = some x := hn.found
  rw [State.taking, State.mapSession_session? _ _ (fun y => y.accept f.seq kind) (fun _ => rfl),
    State.mapSession_session? _ _ _ (fun x => (Session.resume_fields x).1), this]
  simp [hh]

/-- Taking a new request touches no other block, and no other session. -/
@[simp] theorem State.taking_frame (kind : Byte) (f : Frame) :
    (s.taking kind f).pending = s.pending ∧ (s.taking kind f).now = s.now ∧ (s.taking kind f).lm = s.lm ∧
    (s.taking kind f).bp = s.bp ∧ (s.taking kind f).slots = s.slots ∧ (s.taking kind f).bookings = s.bookings ∧
    (s.taking kind f).delivery = s.delivery ∧ (s.taking kind f).panel = s.panel ∧
    (s.taking kind f).link.responses = s.link.responses ∧ (s.taking kind f).link.tx = s.link.tx ∧
    (s.taking kind f).link.resetLine = s.link.resetLine ∧ (s.taking kind f).link.receive = .idle :=
  ⟨rfl, rfl, rfl, rfl, rfl, rfl, rfl, rfl, rfl, rfl, rfl, rfl⟩

/-- Two changes to the records of one host's session are one. -/
theorem State.mapSession_mapSession (h : Addr) (f g : Session → Session) (hf : ∀ x, (f x).host = x.host) :
    (s.mapSession h f).mapSession h g = s.mapSession h (fun x => g (f x)) := by
  simp only [State.mapSession, List.map_map]
  congr 1
  apply List.map_congr_left
  intro x _
  by_cases hx : x.host = h <;> simp [hx, hf]

/-- The state in which a new request is carried out, as one change of its session's record. -/
theorem State.taking_eq (kind : Byte) (f : Frame) :
    s.taking kind f = s.endReception.mapSession (frameHost f) (fun x => x.resume.accept f.seq kind) := by
  rw [State.taking, State.mapSession_mapSession _ _ _ _ (fun x => (Session.resume_fields x).1)]

/-- What answering a new request makes of the state in which it is carried out. -/
theorem State.taking_answer {kind : Byte} {f : Frame} {x : Session} (hn : NewRequest s kind f x) (st : Status)
    (p : List Byte) : (s.taking kind f).answer (frameHost f) st p = s.answeredRequest kind f st p := by
  have hx := s.taking_session hn
  simp only [State.answer, State.answerWith, hx]
  rw [State.taking_eq, State.mapSession_mapSession _ _ (fun x => x.resume.accept f.seq kind) _
    (fun x => by simp [Session.accept])]
  simp [State.answeredRequest, State.answeredRequestWith, State.pushResponse, State.mapSession, State.endReception,
    Session.answered, Session.accept, Session.answeredNew, Link.answeredNew, takenResponse]

/-- What a FAULT to a new request makes of the state in which it is carried out. -/
theorem State.taking_answerFault {kind : Byte} {f : Frame} {x : Session} (hn : NewRequest s kind f x)
    (code : FaultCode) (i : Option FieldIndex) :
    (s.taking kind f).answerFault (frameHost f) code i = s.deniedRequest kind f (.fault code i) := by
  have hx := s.taking_session hn
  have hh := (s.taking kind f).session?_host hx
  have hm : ((s.taking kind f).mapSession (frameHost f) (fun x => x.markFault code x.lastKind x.lastSeq i)).session?
      (frameHost f) = some ((x.resume.accept f.seq kind).markFault code kind f.seq i) := by
    rw [State.mapSession_session? _ _ (fun x => x.markFault code x.lastKind x.lastSeq i) (fun _ => rfl), hx]
    simp [hh]; rfl
  simp only [State.answerFault, State.answer, State.answerWith, hm]
  rw [State.taking_eq, State.mapSession_mapSession _ _ (fun x => x.resume.accept f.seq kind) _
    (fun x => by simp [Session.accept]),
    State.mapSession_mapSession _ _ (fun y => (y.resume.accept f.seq kind).markFault code
      (y.resume.accept f.seq kind).lastKind (y.resume.accept f.seq kind).lastSeq i) _
    (fun x => by simp [Session.accept, Session.markFault])]
  simp [State.deniedRequest, State.answeredRequestWith, State.pushResponse, State.mapSession, State.endReception,
    Session.answered, Session.accept, Session.answeredNew, Link.answeredNew, takenResponse, Session.markFault,
    FaultRecord.mark, faultAfter]
  -- The rest is left where the simp set of Mathlib is not imported.
  all_goals
    intro a _
    split
    · cases a.fault <;> rfl
    · rfl

/-- What turning a new request away makes of the state in which it is carried out. -/
theorem State.taking_deny {kind : Byte} {f : Frame} {x : Session} (hn : NewRequest s kind f x) (d : Denial) :
    (s.taking kind f).deny (frameHost f) d = s.deniedRequest kind f d := by
  cases d with
  | fault code i => exact s.taking_answerFault hn code i
  | status st => exact s.taking_answer hn st []

/-- The class of a session whose new request is carried out is the class it opened with. -/
theorem State.taking_isManager {kind : Byte} {f : Frame} {x : Session} (hn : NewRequest s kind f x) :
    (s.taking kind f).isManager (frameHost f) = decide (x.cls = .manager) := by
  simp [State.isManager, s.taking_session hn, Session.accept]

/-- The tags of a session whose new request is carried out. -/
theorem State.taking_tags {kind : Byte} {f : Frame} {x : Session} (hn : NewRequest s kind f x) :
    (s.taking kind f).tags (frameHost f) = x.tags := by
  simp [State.tags, s.taking_session hn, Session.accept]

/-! ### The payloads of requests -/

/-- A two-byte field comes back from its bytes. -/
@[simp] theorem word16_bytes (w : Word16) : word16 (w.extractLsb' 8 8) (w.extractLsb' 0 8) = w := by
  apply BitVec.eq_of_getLsbD_eq
  intro i hi
  simp only [word16, BitVec.getLsbD_append, BitVec.getLsbD_extractLsb']
  by_cases h : i < 8
  · simp [h]
  · have : i - 8 < 8 := by omega
    simp [h, this]
    congr 1; omega

/-- A token field comes back from its bytes. -/
@[simp] theorem word32_bytes (t : Token) :
    word32 (t.extractLsb' 24 8) (t.extractLsb' 16 8) (t.extractLsb' 8 8) (t.extractLsb' 0 8) = t := by
  apply BitVec.eq_of_getLsbD_eq
  intro i hi
  simp only [word32, BitVec.getLsbD_append, BitVec.getLsbD_extractLsb']
  by_cases h : i < 8
  · simp [h]
  · by_cases h2 : i - 8 < 8
    · simp [h, h2]; congr 1; omega
    · by_cases h3 : i - 8 - 8 < 8
      · simp [h, h2, h3]; congr 1; omega
      · have : i - 8 - 8 - 8 < 8 := by omega
        simp [h, h2, h3, this]; congr 1; omega

/-- A tag field names its tag. -/
@[simp] theorem tagOf_tagByte (t : Tag) : tagOf (tagByte t) = some t := by
  revert t; decide

/-- The fields of an ACQUIRE come back from its payload. -/
theorem parseAcquire_payload (a : AcquireFields) : parseAcquire (acquirePayload a) = .ok a := by
  obtain ⟨tag, slot, ch, mode, term, wait, urgent⟩ := a
  cases mode <;> cases urgent <;> simp [acquirePayload, parseAcquire, bytes16, modeOf, flagByte, flagOf]

/-- The fields of an ACCESS come back from its payload. -/
theorem parseAccess_payload (a : AccessFields) : parseAccess (accessRequestPayload a) = .ok a := by
  obtain ⟨h, t, c, op, r⟩ := a
  cases op <;> simp [accessRequestPayload, parseAccess, bytes32, bytes16]

/-- A handle field that names a handle. -/
theorem handleOf_eq {b : Byte} {h : Handle} (e : b.toNat = h.val) : handleOf b = some h := by
  have : b.toNat < 64 := by omega
  simp [handleOf, e]

/-- A match finds its lease: handles name leases (R19). -/
theorem matchLease_matches (hd : HandlesDistinct s) {h : Addr} {handle : Byte} {token : Token} {l : Lease}
    (hm : Matches s h handle token l) : matchLease s.lm.leases h handle token = some l := by
  obtain ⟨hl, he, ht, hh⟩ := hm
  have hp : (decide (handleOf handle = some l.handle) && decide (l.token = token) && decide (l.holder = h)) = true := by
    simp [handleOf_eq he, ht, hh]
  unfold matchLease
  cases hf : s.lm.leases.find? (fun l =>
      decide (handleOf handle = some l.handle) && decide (l.token = token) && decide (l.holder = h)) with
  | none => exact absurd hp (by simpa using List.find?_eq_none.mp hf l hl)
  | some k =>
    have hk := List.find?_some hf
    have hkm := List.mem_of_find?_eq_some hf
    have : k.handle = l.handle := by
      have h1 : handleOf handle = some k.handle := by simp_all
      rw [handleOf_eq he] at h1
      simpa using h1.symm
    have hinj := List.inj_on_of_nodup_map hd
    rw [hinj hkm hl this]

/-- With no match, none is found. -/
theorem matchLease_none {h : Addr} {handle : Byte} {token : Token}
    (hm : ∀ l, ¬ Matches s h handle token l) : matchLease s.lm.leases h handle token = none := by
  unfold matchLease
  rw [List.find?_eq_none]
  intro l hl hp
  simp only [Bool.and_eq_true, decide_eq_true_eq] at hp
  obtain ⟨⟨h1, h2⟩, h3⟩ := hp
  refine hm l ⟨hl, ?_, h2.symm, h3⟩
  unfold handleOf at h1
  split at h1
  · have := Option.some.inj h1
    simp [← this]
  · cases h1

/-! ### Containment -/

/-- What a resource contains (R2): channels below the count of a READY slot, and of those its own or, with slot scope,
every one. -/
theorem Resource.contains_iff {r : Resource} {st : SlotState} {c : ChannelNo} :
    r.contains st c = true ↔
      ∃ n cls, st = .ready n cls ∧ c.val < n.toNat ∧ (r.channel = none ∨ r.channel = some c) := by
  cases st <;> simp [Resource.contains, SlotState.channels?]

/-! ### The Lease Manager's operations -/

/-- A grant by walk changes the tables and the session records only. -/
@[simp] theorem State.grantWait_frame (hd : Handle) (w : Wait) :
    (s.grantWait hd w).pending = s.pending ∧ (s.grantWait hd w).now = s.now ∧
    (s.grantWait hd w).link = s.link ∧ (s.grantWait hd w).bp = s.bp ∧ (s.grantWait hd w).slots = s.slots ∧
    (s.grantWait hd w).bookings = s.bookings ∧ (s.grantWait hd w).delivery = s.delivery ∧
    (s.grantWait hd w).panel = s.panel := by
  simp [State.grantWait]

/-- The Lease Manager's records after a grant by walk. -/
@[simp] theorem State.grantWait_lm (hd : Handle) (w : Wait) :
    (s.grantWait hd w).lm = (s.addLease (s.newLease hd w.session w.hold w.term)).lm := rfl

/-- A pass over the pool changes the tables and the session records only. -/
theorem State.walkFrom_frame (kept rest : List Wait) :
    ∀ s : State,
    (State.walkFrom kept rest s).pending = s.pending ∧ (State.walkFrom kept rest s).now = s.now ∧
    (State.walkFrom kept rest s).link = s.link ∧ (State.walkFrom kept rest s).bp = s.bp ∧
    (State.walkFrom kept rest s).slots = s.slots ∧ (State.walkFrom kept rest s).bookings = s.bookings ∧
    (State.walkFrom kept rest s).delivery = s.delivery ∧ (State.walkFrom kept rest s).panel = s.panel := by
  induction rest generalizing kept with
  | nil => intro s; simp [State.walkFrom]
  | cons w rest ih =>
    intro s
    unfold State.walkFrom
    split
    · have := ih kept (s.grantWait ‹_› w)
      simpa using this
    · exact ih _ s

/-- A walk changes the tables and the session records only. -/
@[simp] theorem State.walk_frame :
    (s.walk).pending = s.pending ∧ (s.walk).now = s.now ∧ (s.walk).link = s.link ∧ (s.walk).bp = s.bp ∧
    (s.walk).slots = s.slots ∧ (s.walk).bookings = s.bookings ∧ (s.walk).delivery = s.delivery ∧
    (s.walk).panel = s.panel := by
  exact State.walkFrom_frame [] s.lm.waits s

/-- A retirement changes the tables and the session records only. -/
@[simp] theorem State.retire_frame (r : Reason) (l : Lease) :
    (s.retire r l).pending = s.pending ∧ (s.retire r l).now = s.now ∧ (s.retire r l).link = s.link ∧
    (s.retire r l).bp = s.bp ∧ (s.retire r l).slots = s.slots ∧ (s.retire r l).bookings = s.bookings ∧
    (s.retire r l).delivery = s.delivery ∧ (s.retire r l).panel = s.panel := by
  unfold State.retire; split <;> simp

/-- The end of a wait changes the tables and the session records only. -/
@[simp] theorem State.completeWait_frame (c : Completion) (w : Wait) :
    (s.completeWait c w).pending = s.pending ∧ (s.completeWait c w).now = s.now ∧
    (s.completeWait c w).link = s.link ∧ (s.completeWait c w).bp = s.bp ∧
    (s.completeWait c w).slots = s.slots ∧ (s.completeWait c w).bookings = s.bookings ∧
    (s.completeWait c w).delivery = s.delivery ∧ (s.completeWait c w).panel = s.panel := by
  simp [State.completeWait]

/-- The records that a retirement leaves in the table. -/
@[simp] theorem State.retire_leases (r : Reason) (l : Lease) :
    (s.retire r l).lm = (s.dropLease l.handle).lm := by
  unfold State.retire; split <;> simp

/-- Several of them at one event change no more. -/
@[simp] theorem State.retireAll_frame (r : Reason) (ls : List Lease) :
    (s.retireAll r ls).pending = s.pending ∧ (s.retireAll r ls).now = s.now ∧
    (s.retireAll r ls).link = s.link ∧ (s.retireAll r ls).bp = s.bp ∧ (s.retireAll r ls).slots = s.slots ∧
    (s.retireAll r ls).bookings = s.bookings ∧ (s.retireAll r ls).delivery = s.delivery ∧
    (s.retireAll r ls).panel = s.panel := by
  induction ls generalizing s with
  | nil => simp [State.retireAll]
  | cons a as ih =>
    have := ih (s.retire r a)
    simpa [State.retireAll] using this

/-- Several of them at one event change no more. -/
@[simp] theorem State.completeWaits_frame (c : Completion) (ws : List Wait) :
    (s.completeWaits c ws).pending = s.pending ∧ (s.completeWaits c ws).now = s.now ∧
    (s.completeWaits c ws).link = s.link ∧ (s.completeWaits c ws).bp = s.bp ∧
    (s.completeWaits c ws).slots = s.slots ∧ (s.completeWaits c ws).bookings = s.bookings ∧
    (s.completeWaits c ws).delivery = s.delivery ∧ (s.completeWaits c ws).panel = s.panel := by
  induction ws generalizing s with
  | nil => simp [State.completeWaits]
  | cons a as ih =>
    have := ih (s.completeWait c a)
    simpa [State.completeWaits] using this

/-- A vacate's part at the Lease Manager changes the tables and the session records only. -/
@[simp] theorem State.vacateLeases_frame (i : SlotNo) :
    (s.vacateLeases i).pending = s.pending ∧ (s.vacateLeases i).now = s.now ∧
    (s.vacateLeases i).link = s.link ∧ (s.vacateLeases i).bp = s.bp ∧ (s.vacateLeases i).slots = s.slots ∧
    (s.vacateLeases i).bookings = s.bookings ∧ (s.vacateLeases i).delivery = s.delivery ∧
    (s.vacateLeases i).panel = s.panel := by
  simp [State.vacateLeases]

/-- A close's part at the Lease Manager changes the tables and the session records only. -/
@[simp] theorem State.closeLeases_frame (h : Addr) :
    (s.closeLeases h).pending = s.pending ∧ (s.closeLeases h).now = s.now ∧ (s.closeLeases h).link = s.link ∧
    (s.closeLeases h).bp = s.bp ∧ (s.closeLeases h).slots = s.slots ∧
    (s.closeLeases h).bookings = s.bookings ∧ (s.closeLeases h).delivery = s.delivery ∧
    (s.closeLeases h).panel = s.panel := by
  simp [State.closeLeases]

/-- The leases that stand before a grant stand after it, in the same order (R20). -/
theorem State.walkFrom_leases (kept rest : List Wait) :
    ∀ s : State, ∃ new, (State.walkFrom kept rest s).lm.leases = s.lm.leases ++ new := by
  induction rest generalizing kept with
  | nil => intro s; exact ⟨[], by simp [State.walkFrom]⟩
  | cons w rest ih =>
    intro s
    unfold State.walkFrom
    split
    · obtain ⟨new, h⟩ := ih kept (s.grantWait ‹_› w)
      exact ⟨s.newLease ‹_› w.session w.hold w.term :: new, by simp [h]⟩
    · exact ih _ s

/-- A walk adds leases at the end of grant order and removes none. -/
theorem State.walk_leases : ∃ new, s.walk.lm.leases = s.lm.leases ++ new :=
  State.walkFrom_leases [] s.lm.waits s

/-- While the service switch is in SERVICE, a pass keeps every record and grants nothing (R64). -/
theorem State.walkFrom_service (kept rest : List Wait) (hs : s.panel.service = .service) :
    State.walkFrom kept rest s = { s with lm := { s.lm with waits := kept ++ rest } } := by
  induction rest generalizing kept with
  | nil => simp [State.walkFrom]
  | cons w rest ih =>
    have : s.walkHandle kept w = none := by simp [State.walkHandle, hs]
    simp only [State.walkFrom, this]
    rw [ih]; simp

/-- While the service switch is in SERVICE, a walk changes nothing (R64). -/
theorem State.walk_service (hs : s.panel.service = .service) : s.walk = s := by
  rw [State.walk, s.walkFrom_service _ _ hs]; rfl

/-- A free handle is held by no live record. -/
theorem freeHandle_free {ls : List Lease} {h : Handle} (hf : freeHandle ls = some h) : h ∉ ls.map Lease.handle := by
  have := List.find?_some hf
  simpa using this

/-- No handle is free only when every handle is held. -/
theorem freeHandle_none {ls : List Lease} (hf : freeHandle ls = none) (h : Handle) : h ∈ ls.map Lease.handle := by
  have := List.find?_eq_none.mp hf h (List.mem_finRange h)
  simpa using this

/-! ### Outbound Queues -/

/-- When the entry at the head is undelivered again, it keeps its place, and so does every other entry, but for a later
ATTENTION entry for the slot of an ATTENTION entry (R147). -/
theorem OutboundQueue.returned_head {q : OutboundQueue} {e : Entry} {rest : List Entry} (he : q.entries = e :: rest)
    (hn : (q.entries.map Entry.seq).Nodup) :
    q.returned e.seq = { q with entries := e :: (match e.body with
      | .notice (.attention slot) _ => rest.filter (fun x => !x.isAttention slot)
      | _ => rest) } := by
  have hfind : q.entries.find? (fun x => decide (x.seq = e.seq)) = some e := by simp [he]
  have later : ∀ slot, q.entries.filter (fun x => !(x.isAttention slot && decide (x.seq ≠ e.seq))) =
      e :: rest.filter (fun x => !x.isAttention slot) := by
    intro slot
    rw [he] at hn ⊢
    have hne : ∀ x ∈ rest, x.seq ≠ e.seq := fun x hx h =>
      (List.nodup_cons.1 hn).1 (h ▸ List.mem_map_of_mem hx)
    rw [List.filter_cons_of_pos (by simp)]
    congr 1
    exact List.filter_congr (fun x hx => by simp [hne x hx])
  obtain ⟨n, b⟩ := e
  simp only [OutboundQueue.returned, OutboundQueue.attentionOf, hfind]
  cases b with
  | completion tag o => simp [← he]
  | notice k lost =>
    cases k with
    | lease k r h t => simp [← he]
    | attention slot =>
      simp only [OutboundQueue.withEntries, later slot]
      simp [headNumber, he]

/-- Starting the head leaves every entry but its LOST flag alone. -/
@[simp] theorem OutboundQueue.started_fields (q : OutboundQueue) :
    q.started.contended = none ∧ q.started.counter = q.counter ∧ q.started.attempts = q.attempts ∧
    q.started.entries = q.transmitHead.entries ∧ q.started.marker = q.transmitHead.marker := by
  unfold OutboundQueue.started OutboundQueue.transmitHead
  split <;> exact ⟨rfl, rfl, rfl, rfl, rfl⟩

/-- The removal by UNBOOK leaves the overflow marker unchanged (R149, last paragraph). -/
@[simp] theorem OutboundQueue.removeAttention_marker (q : OutboundQueue) (flying : Option Byte) (slot : SlotNo) :
    (q.removeAttention flying slot).marker = q.marker := rfl

/-- The marker after an UNBOOK: SET for a REPORTED one when the removed entry carried LOST, else unchanged (R158). -/
theorem OutboundQueue.unbook_marker (q : OutboundQueue) (flying : Option Byte) (slot : SlotNo) :
    (q.unbook flying slot).marker = Marker.removed (q.attentionLost flying slot) q.marker := rfl

/-- What an ACK can do (R162): it ends the attempt of the entry in flight, or it is ignored. -/
theorem State.takeAck_cases (seq : Byte) (h : Addr) :
    (s.flying h = some seq ∧ s.takeAck seq h = s.acknowledge h seq) ∨
    (s.flying h ≠ some seq ∧ s.takeAck seq h = s) := by
  unfold State.takeAck
  split_ifs with h1
  · exact .inl ⟨h1, rfl⟩
  · exact .inr ⟨h1, rfl⟩

/-- What the loss of the entry in flight to contention leaves behind (R160). -/
theorem State.entryLost_attempt {a : Attempt} (ha : s.delivery.attempt = some a) :
    s.entryLost true = { s.mapQueue a.host (fun q => q.contend a.seq) with
      delivery := { s.delivery with attempt := none } } := by
  simp only [State.entryLost, ha]

/-! ### Firing, the arbiter, and the ends of sessions -/

/-- Handing several notices changes the session records only. -/
theorem State.foldl_handNotice_frame {α : Type} (g : α → Addr) (n : α → Notice) (as : List α) :
    ∀ s : State,
    (as.foldl (fun s a => s.handNotice (g a) (n a)) s).pending = s.pending ∧
    (as.foldl (fun s a => s.handNotice (g a) (n a)) s).now = s.now ∧
    (as.foldl (fun s a => s.handNotice (g a) (n a)) s).link = s.link ∧
    (as.foldl (fun s a => s.handNotice (g a) (n a)) s).lm = s.lm ∧
    (as.foldl (fun s a => s.handNotice (g a) (n a)) s).bp = s.bp ∧
    (as.foldl (fun s a => s.handNotice (g a) (n a)) s).slots = s.slots ∧
    (as.foldl (fun s a => s.handNotice (g a) (n a)) s).bookings = s.bookings ∧
    (as.foldl (fun s a => s.handNotice (g a) (n a)) s).delivery = s.delivery ∧
    (as.foldl (fun s a => s.handNotice (g a) (n a)) s).panel = s.panel := by
  induction as with
  | nil => intro s; simp
  | cons a as ih => intro s; simpa using ih (s.handNotice (g a) (n a))

/-- Firing changes the Booking Table and the session records only. -/
@[simp] theorem State.fire_frame (p : Booking → Bool) :
    (s.fire p).pending = s.pending ∧ (s.fire p).now = s.now ∧ (s.fire p).link = s.link ∧
    (s.fire p).lm = s.lm ∧ (s.fire p).bp = s.bp ∧ (s.fire p).slots = s.slots ∧
    (s.fire p).delivery = s.delivery ∧ (s.fire p).panel = s.panel := by
  have := State.foldl_handNotice_frame Booking.session (fun b => .attention b.slot)
    (s.bookings.filter (fun b => p b && decide (b.state = .armed)))
    { s with bookings := fireBookings p s.bookings }
  simp only [State.fire]
  simp_all

/-- A rise changes the Booking Table and the session records only. -/
@[simp] theorem State.reportRise_frame (i : SlotNo) :
    (s.reportRise i).pending = s.pending ∧ (s.reportRise i).now = s.now ∧ (s.reportRise i).link = s.link ∧
    (s.reportRise i).lm = s.lm ∧ (s.reportRise i).bp = s.bp ∧ (s.reportRise i).slots = s.slots ∧
    (s.reportRise i).delivery = s.delivery ∧ (s.reportRise i).panel = s.panel := by
  simp [State.reportRise]

/-- So does a rise that is reported only on a raised level. -/
@[simp] theorem State.reportIfRaised_frame (i : SlotNo) :
    (s.reportIfRaised i).pending = s.pending ∧ (s.reportIfRaised i).now = s.now ∧ (s.reportIfRaised i).link = s.link ∧
    (s.reportIfRaised i).lm = s.lm ∧ (s.reportIfRaised i).bp = s.bp ∧ (s.reportIfRaised i).slots = s.slots ∧
    (s.reportIfRaised i).delivery = s.delivery ∧ (s.reportIfRaised i).panel = s.panel := by
  unfold State.reportIfRaised; split <;> simp

/-- A recall changes the tables and the session records only. -/
@[simp] theorem State.recall_frame (w : Wait) :
    (s.recall w).pending = s.pending ∧ (s.recall w).now = s.now ∧ (s.recall w).link = s.link ∧
    (s.recall w).bp = s.bp ∧ (s.recall w).slots = s.slots ∧ (s.recall w).bookings = s.bookings ∧
    (s.recall w).delivery = s.delivery ∧ (s.recall w).panel = s.panel := by
  have := State.foldl_handNotice_frame Lease.holder (fun l => .lease .recall l.resource l.handle l.token)
    (recallTargets s.lm.leases w.hold)
    { s with lm := { s.lm with leases := s.lm.leases.map (fun l =>
        if l.state = .held ∧ w.hold.compatible l.hold = false then
          l.recall (s.now + s.panel.config.tGrace.toNat * Config.second) w.arrival
        else l) } }
  simp only [State.recall]
  simp_all

/-- Applying an identification outcome changes the slot, and what a rise changes. -/
@[simp] theorem State.identified_frame (i : SlotNo) (o : CycleOutcome) :
    (s.identified i o).pending = s.pending ∧ (s.identified i o).now = s.now ∧
    (s.identified i o).link = s.link ∧ (s.identified i o).lm = s.lm ∧ (s.identified i o).bp = s.bp ∧
    (s.identified i o).delivery = s.delivery ∧ (s.identified i o).panel = s.panel := by
  unfold State.identified; split <;> simp

/-- Serving the Access Queue changes the Sequencer, and forms answers. -/
theorem State.serveQueue_frame (q : List AccessEntry) :
    ∀ s : State,
    (State.serveQueue q s).pending = s.pending ∧ (State.serveQueue q s).now = s.now ∧
    (State.serveQueue q s).lm = s.lm ∧ (State.serveQueue q s).slots = s.slots ∧
    (State.serveQueue q s).bookings = s.bookings ∧ (State.serveQueue q s).delivery = s.delivery ∧
    (State.serveQueue q s).panel = s.panel := by
  induction q with
  | nil => intro s; simp [State.serveQueue]
  | cons e q ih =>
    intro s
    unfold State.serveQueue
    split
    · simpa using ih (s.answer e.session ‹_› [])
    · simp

/-- Choosing an identification changes the Sequencer only. -/
@[simp] theorem State.chooseIdentification_frame :
    (s.chooseIdentification).pending = s.pending ∧ (s.chooseIdentification).now = s.now ∧
    (s.chooseIdentification).link = s.link ∧ (s.chooseIdentification).sessions = s.sessions ∧
    (s.chooseIdentification).lm = s.lm ∧ (s.chooseIdentification).slots = s.slots ∧
    (s.chooseIdentification).bookings = s.bookings ∧ (s.chooseIdentification).delivery = s.delivery ∧
    (s.chooseIdentification).panel = s.panel := by
  unfold State.chooseIdentification; split <;> simp

/-- Choosing an access changes the Sequencer, and forms answers. -/
@[simp] theorem State.chooseAccess_frame :
    (s.chooseAccess).pending = s.pending ∧ (s.chooseAccess).now = s.now ∧ (s.chooseAccess).lm = s.lm ∧
    (s.chooseAccess).slots = s.slots ∧ (s.chooseAccess).bookings = s.bookings ∧
    (s.chooseAccess).delivery = s.delivery ∧ (s.chooseAccess).panel = s.panel := by
  unfold State.chooseAccess; split
  · simpa using State.serveQueue_frame s.bp.queue s
  · simp

/-- The arbiter's choice changes the Sequencer, and forms answers. -/
@[simp] theorem State.arbitrate_frame :
    (s.arbitrate).pending = s.pending ∧ (s.arbitrate).now = s.now ∧ (s.arbitrate).lm = s.lm ∧
    (s.arbitrate).slots = s.slots ∧ (s.arbitrate).bookings = s.bookings ∧
    (s.arbitrate).delivery = s.delivery ∧ (s.arbitrate).panel = s.panel := by
  simp [State.arbitrate]

/-- What is left of the session records when one session has been closed (R92). -/
theorem State.closeSession_session? (h k : Addr) (hk : k ≠ h) :
    (s.closeSession h).session? k = (s.closeLeases h).session? k := by
  simp only [State.closeSession, State.session?, List.find?_filter]
  congr 1
  funext x
  by_cases hx : x.host = k
  · simp [hx, hk]
  · simp [hx]

/-- A closed session is gone (R92 step 7). -/
theorem State.closeSession_gone (h : Addr) : (s.closeSession h).session? h = none := by
  simp [State.closeSession, State.session?]

/-- What a link clear makes of every block (R172). -/
@[simp] theorem State.linkClear_blocks :
    s.linkClear.pending = s.pending ∧ s.linkClear.now = s.now ∧ s.linkClear.sessions = [] ∧
    s.linkClear.lm = s.lm.clear ∧ s.linkClear.bp = s.bp.clear ∧ s.linkClear.slots = s.slots ∧
    s.linkClear.bookings = [] ∧ s.linkClear.delivery = { attempt := none, pointer := none } ∧
    s.linkClear.panel = s.panel.clear ∧ s.linkClear.link.responses = [] ∧ s.linkClear.link.tx = none ∧
    s.linkClear.link.receive = .idle ∧ s.linkClear.link.resetLine = s.link.resetLine :=
  ⟨rfl, rfl, rfl, rfl, rfl, rfl, rfl, rfl, rfl, rfl, rfl, rfl, rfl⟩

end Sys2Proof.Machine
end

