-- ==== Sys2Proof/Tests/Slice0.lean ====
section
/-! SUPPORT. Tests: what the well-formedness check refuses, the effect of one command on small states, and, for
every statement with hypotheses, a state and operands that meet them (`witness_<statement>`). -/

namespace Sys2Proof.Tests

open Sys2Proof.Machine

-- One theorem at a time: the tests are many and each is short.
set_option Elab.async false

/-! ### Small states -/

/-- A REQUEST frame for node 2 with a good CRC. -/
def req (src seq kind : Byte) (payload : List Byte) : Frame :=
  { dest := 2, src, seq, payload, crc := frameCrc 2 src FrameKind.request seq kind payload }

/-- An ACK frame for node 2 with a good CRC. -/
def ackOf (src seq : Byte) : Frame :=
  { dest := 2, src, seq, payload := [], crc := frameCrc 2 src FrameKind.ack seq 0x00 [] }

/-- The same frame with a wrong CRC. -/
def spoilt (f : Frame) : Frame := { f with crc := f.crc + 1 }

/-- A NORMAL session with nothing in flight. -/
def sess (host : Addr) (last : Byte) : Session :=
  { Session.opened host .normal last false with inFlight := false }

/-- The MANAGER's session with nothing in flight. -/
def chief : Session := { sess 1 10 with cls := .manager }

/-- A READY slot. -/
def readySlot (n : BitVec 4) (attention : Bool) : SlotRecord := { state := .ready n 0x31, presence := true, attention }

/-- Sessions of hosts 1 (MANAGER), 3 and 5; slot 4 READY with 2 channels; slot 9 READY with 4, its attention raised. -/
def base : State :=
  { State.reset with
    sessions := [chief, sess 3 40, sess 5 50]
    slots := (State.reset.slots.set 4 (readySlot 2 false)).set 9 (readySlot 4 true) }

/-- Another record for one slot. -/
def withSlot (s : State) (slot : SlotNo) (r : SlotRecord) : State := s.setSlot slot (fun _ => r)

/-- A lease of host 3 on channel 0 of slot 4. -/
def held : Lease :=
  { handle := 0, holder := 3, resource := ⟨4, some 0⟩, mode := .exclusive, token := 1, state := .held, term := 60,
    expiry := 60000000 }

/-- The base state with that lease. -/
def leased : State := { base with lm := { base.lm with leases := [held], tokenCounter := 2 } }

/-- A deferred ACQUIRE of host 5 for the same channel. -/
def waiter : Wait :=
  { session := 5, tag := 2, resource := ⟨4, some 0⟩, mode := .shared, term := 30, urgent := false,
    deadline := 20000000, arrival := 1 }

/-- The leased state with that wait record. -/
def crowded : State :=
  { leased with
    lm := { leased.lm with waits := [waiter], arrivalCounter := 1 }
    sessions := [chief, sess 3 40, { sess 5 50 with tags := [2] }] }

/-- The lease recalled, with 8 seconds of grace, by the urgent wait record with arrival number 7. -/
def recalled : State := { leased with lm := { leased.lm with leases := [held.recall 8000000 7] } }

/-- A full Lease Table: 64 SHARED leases of host 3 on slot 9. -/
def fullTable : State :=
  { base with lm := { base.lm with
      tokenCounter := 65
      leases := (List.finRange 64).map (fun h =>
        { held with handle := h, resource := ⟨9, none⟩, mode := .shared, token := BitVec.ofNat 32 (h.val + 1) }) } }

/-- A READ of host 3 under its lease, waiting for the backplane. -/
def readEntry : AccessEntry :=
  { session := 3, handle := 0, token := 1, channel := 0, op := .read, register := 16, slot := 4 }

/-- That access as the cycle in flight. -/
def readCycle (discard : Bool) : Cycle := { kind := .access 3 4 0 .read 16 discard, silence := 4 }

/-- The leased state while that cycle is in flight, with its guard. -/
def reading (discard : Bool) : State :=
  { leased with
    bp := { leased.bp with cycle := some (readCycle discard), guardHold := some held.hold }
    sessions := [chief, { sess 3 40 with inFlight := true, stored := none }, sess 5 50] }

/-- Slot 0 under identification. -/
def identifying : State :=
  { withSlot base 0 { state := .identifying, presence := true, attention := false } with
    bp := { base.bp with cycle := some { kind := .identify 0, silence := 4 } } }

/-- A response to host 3. -/
def doneTo3 : Response := takenResponse 3 41 .done []

/-- An undelivered ATTENTION notice for slot 9. -/
def bell : Entry := { seq := 0, body := .notice (.attention 9) none }

/-- The completion of host 5's wait. -/
def timeout : Entry := { seq := 7, body := .completion 2 .timedOut }

/-- Host 5 with the completion at the head of its queue and the ATTENTION notice behind it. -/
def busyQueue : Session :=
  { sess 5 50 with tags := [2], out := { entries := [timeout, bell], counter := 8, marker := .clear, attempts := 3, contended := none } }

/-- The base state with that session. -/
def queued : State := { base with sessions := [chief, sess 3 40, busyQueue] }

/-- The completion in flight, its tACK wait running. -/
def waitingAck : State :=
  { queued with delivery :=
      { attempt := some { host := 5, seq := 7, tAck := 10, deadline := some 10000 }, pointer := some 5 } }

/-- The command answers a next state, of which the test holds. -/
def holdsAfter (c : Instr) (s : State) (p : State → Bool) : Bool :=
  match exec c s with
  | .next t => p t
  | .fault _ | .refused _ => false

/-- What a response that waits says. -/
structure Answer where
  host : Addr
  seq : Byte
  status : Status
  payload : List Byte
  deriving DecidableEq, Repr

/-- The responses that wait. -/
def answers (s : State) : List Answer := s.link.responses.map (fun r => ⟨r.host, r.seq, r.status, r.payload⟩)

/-- What the entries of a session's Outbound Queue carry. -/
def bodies (s : State) (h : Addr) : Option (List EntryBody) :=
  (s.session? h).map (fun x => x.out.entries.map Entry.body)

/-- A response in transmission. -/
def sending (r : Response) (s : State) : State :=
  { s with link := { s.link with tx := some { item := .response r, wire := [] } } }

/-- Lines and switches at power-on: slot 3 occupied, reset line low, node 6, manager 4, SERVICE. -/
def somePins : Pins :=
  { presence := (Vector.replicate 16 false).set 3 true, attention := Vector.replicate 16 false, resetLow := true,
    switches := ⟨6, 4⟩, service := .service }

/-- The fields of an ACQUIRE for channel 0 of slot 4. -/
def wants (mode : Mode) (waitLimit : Byte) (urgent : Bool) : AcquireFields :=
  { tag := 1, slot := 4, channel := 0, mode, term := 60, waitLimit, urgent }

/-- An ACQUIRE frame. -/
def acquireFrame (src seq : Byte) (a : AcquireFields) : Frame := req src seq Kind.acquire (acquirePayload a)

/-- A request of host 3 with the next number. -/
def from3 (kind : Byte) (payload : List Byte) : Frame := req 3 41 kind payload

/-! ### Well-formed commands -/

theorem test_wf_longest_payload : (Instr.acquire (req 3 41 0x10 (List.replicate 96 0))).wf = true := by decide +kernel
theorem test_wf_payload_too_long : (Instr.acquire (req 3 41 0x10 (List.replicate 97 0))).wf = false := by
  decide +kernel
theorem test_wf_discard_too_long : (Instr.frameDiscard 1 0x10 (req 3 41 0x10 (List.replicate 97 0))).wf = false := by
  decide +kernel
theorem test_wf_unknown_kind : (Instr.unknownRequestKind 0x7F (req 3 41 0x7F [])).wf = true := by decide +kernel
theorem test_wf_known_kind : (Instr.unknownRequestKind 0x42 (req 3 41 0x42 [])).wf = false := by decide +kernel

/-! ### Bytes on the pair (R175) -/

/-- The CRC of the digits 1 to 9 is 0x29B1. -/
theorem test_crc_check_value : crc16 [0x31, 0x32, 0x33, 0x34, 0x35, 0x36, 0x37, 0x38, 0x39] = 0x29B1 := by
  decide +kernel

theorem test_wire_ack_length : (wireFrame 3 2 0x02 41 0x00 []).length = 9 := by decide +kernel

/-! ### One command each -/

theorem test_power_on :
    holdsAfter (.powerOn somePins)
      leased (fun t =>
      (t.slots[3]).state = .settling 100000 ∧ t.lm.leases.length = 0 ∧ t.lm.tokenCounter = 1 ∧
      t.panel.nodeAddress = 6 ∧ t.link.resetLine = .asserted) = true := by
  decide +kernel

theorem test_open :
    holdsAfter (.openSession ⟨2, 1⟩ (req 7 0 0x01 [])) base (fun t =>
      answers t = [⟨7, 0, .done, [0, 0]⟩]) = true := by
  decide +kernel

theorem test_open_manager_again :
    holdsAfter (.openSession ⟨2, 1⟩ (req 1 99 0x01 [])) base (fun t =>
      answers t = [⟨1, 99, .done, [1, 1]⟩]) = true := by
  decide +kernel

theorem test_close :
    holdsAfter (.closeSession (from3 0x02 [])) crowded (fun t =>
      t.sessions.map Session.host = [1, 5] ∧ t.lm.leases.map Lease.holder = [5] ∧
      answers t = [⟨3, 41, .done, []⟩]) = true := by
  decide +kernel

theorem test_fetch_fault :
    holdsAfter (.fetchFault (from3 0x03 []))
      { base with sessions := [{ sess 3 40 with fault := some ⟨.badTerm, 0x10, 39, some 4, true⟩ }] } (fun t =>
      answers t = [⟨3, 41, .done, [0x04, 0x10, 39, 0x04, 0x01]⟩]) = true := by
  decide +kernel

theorem test_acquire_granted :
    holdsAfter (.acquire (acquireFrame 3 41 (wants .exclusive 0 false))) base (fun t =>
      t.lm.leases = [held] ∧ answers t = [⟨3, 41, .granted, [0, 0, 0, 0, 1, 0, 60]⟩]) = true := by
  decide +kernel

theorem test_acquire_recalls :
    holdsAfter (.acquire (acquireFrame 1 11 (wants .shared 20 true))) leased (fun t =>
      t.lm.leases.map Lease.state = [.recalled 10000000 1] ∧ answers t = [⟨1, 11, .deferred, [1]⟩] ∧
      bodies t 3 = some [.notice (.lease .recall ⟨4, some 0⟩ 0 1) none]) = true := by
  decide +kernel

theorem test_renew :
    holdsAfter (.renew (from3 0x11 [0, 0, 0, 0, 1, 0, 90])) leased (fun t =>
      t.lm.leases.map (fun l => (l.term, l.expiry)) = [(90, 90000000)] ∧
      answers t = [⟨3, 41, .done, [0, 90]⟩]) = true := by
  decide +kernel

theorem test_renew_recalled :
    holdsAfter (.renew (from3 0x11 [0, 0, 0, 0, 1, 0, 90])) { recalled with now := 1500000 } (fun t =>
      answers t = [⟨3, 41, .recalled, [6]⟩]) = true := by
  decide +kernel

theorem test_release :
    holdsAfter (.release (from3 0x12 [0, 0, 0, 0, 1])) crowded (fun t =>
      t.lm.leases.map (fun l => (l.holder, l.token, l.expiry)) = [(5, 2, 30000000)] ∧ t.lm.waits.length = 0 ∧
      answers t = [⟨3, 41, .done, []⟩]) = true := by
  decide +kernel

theorem test_cancel :
    holdsAfter (.cancel (req 5 51 0x13 [2])) crowded (fun t =>
      t.lm.waits.length = 0 ∧ (t.session? 5).map Session.tags = some [] ∧
      answers t = [⟨5, 51, .done, []⟩]) = true := by
  decide +kernel

theorem test_query :
    holdsAfter (.query (req 5 51 0x14 [4, 0xFF])) crowded (fun t =>
      answers t = [⟨5, 51, .done, [1, 1, 2, 0x31, 0x13, 0, 60, 0xFF]⟩]) = true := by
  decide +kernel

theorem test_access :
    holdsAfter (.access (from3 0x20 [0, 0, 0, 0, 1, 0, 0, 16])) leased (fun t =>
      t.bp.cycle = some (readCycle false) ∧ t.bp.guardHold = some held.hold ∧ answers t = []) = true := by
  decide +kernel

/-- No resource contains a channel at or above the count of its slot. -/
theorem test_contains_below_count :
    (List.finRange 4).filter (Resource.contains ⟨4, none⟩ (.ready 2 0x31)) = [0, 1] ∧
    (List.finRange 4).filter (Resource.contains ⟨4, some 1⟩ (.ready 2 0x31)) = [1] ∧
    (List.finRange 4).filter (Resource.contains ⟨4, some 2⟩ (.ready 2 0x31)) = [] ∧
    (List.finRange 4).filter (Resource.contains ⟨4, none⟩ .faulted) = [] := by decide +kernel

theorem test_access_write_255 :
    holdsAfter (.access (from3 0x20 [0, 0, 0, 0, 1, 0, 1, 255, 0, 1])) leased (fun t =>
      answers t = [⟨3, 41, .fault, []⟩] ∧
      ((t.session? 3).bind Session.fault).map (fun r => (r.code, r.index)) = some (.badAccess, some 4)) = true := by
  decide +kernel

theorem test_book_raised :
    holdsAfter (.book (from3 0x30 [9, 0])) base (fun t =>
      t.bookings = [] ∧ (t.session? 3).map (fun x => x.out.entries) = some [bell] ∧
      answers t = [⟨3, 41, .done, []⟩]) = true := by
  decide +kernel

theorem test_unbook :
    holdsAfter (.unbook (from3 0x31 [9])) { base with bookings := [⟨3, 9, .standing, .fired⟩] } (fun t =>
      t.bookings = [] ∧ answers t = [⟨3, 41, .done, []⟩]) = true := by
  decide +kernel

theorem test_rearm :
    holdsAfter (.rearm (from3 0x32 [4])) { base with bookings := [⟨3, 4, .standing, .fired⟩] } (fun t =>
      t.bookings = [⟨3, 4, .standing, .armed⟩] ∧ answers t = [⟨3, 41, .done, []⟩]) = true := by
  decide +kernel

theorem test_probe :
    holdsAfter (.probe (req 12 200 0x40 [9])) leased (fun t =>
      answers t = [⟨12, 200, .done,
        [0x02, 0x6C, 2, 1, 0, 5, 63, 32, 0, 0, 0, 0, 0x32, 0, 0, 0, 0, 0x34, 0, 0, 0, 0, 0, 0]⟩]) = true := by
  decide +kernel

theorem test_configure :
    holdsAfter (.configure (req 1 11 0x41 [5, 20, 3, 0x01, 0x00])) base (fun t =>
      t.panel.config = ⟨5, 20, 3, 256⟩ ∧ answers t = [⟨1, 11, .done, [5, 20, 3, 1, 0]⟩]) = true := by
  decide +kernel

theorem test_reset_controller :
    holdsAfter (.resetController (req 1 11 0x42 [])) base (fun t =>
      t.panel.clearCommitted = true ∧ t.link.responses.map Response.clears = [true]) = true := by
  decide +kernel

theorem test_unknown_kind :
    holdsAfter (.unknownRequestKind 0x77 (from3 0x77 [])) base (fun t =>
      (t.session? 3).bind Session.fault = some ⟨.badKind, 0x77, 41, none, false⟩ ∧
      answers t = [⟨3, 41, .fault, []⟩]) = true := by
  decide +kernel

theorem test_ack :
    holdsAfter (.ack 0x00 (ackOf 5 7)) waitingAck (fun t =>
      (t.session? 5).map (fun x => (x.tags, x.out.entries, x.out.attempts)) = some ([], [bell], 0) ∧
      t.delivery.attempt = none) = true := by
  decide +kernel

/-- The completion was lost to contention and waits to be sent again. -/
def waitingResend : State :=
  { base with sessions := [chief, sess 3 40, { busyQueue with out := { busyQueue.out with contended := some 7 } }] }

theorem test_lost_entry_sent_again :
    holdsAfter .transmitStart waitingResend (fun t =>
      t.delivery.attempt = some ⟨5, 7, 10, none⟩ ∧
      (t.session? 5).map Session.out = some { busyQueue.out with contended := none }) = true := by
  decide +kernel

theorem test_ack_of_lost_entry :
    holdsAfter (.ack 0x00 (ackOf 5 7)) waitingResend (fun t => t = waitingResend) = true := by
  decide +kernel

theorem test_frame_discard :
    holdsAfter (.frameDiscard 0x01 0x10 (spoilt (from3 0x10 [])))
      { base with link := { base.link with receive := .receiving } } (fun t =>
      t.link.receive = .idle) = true := by
  decide +kernel

theorem test_start_delimiter :
    holdsAfter .startDelimiter base (fun t =>
      t.link.receive = .receiving) = true := by
  decide +kernel

theorem test_frame_truncated :
    holdsAfter .frameTruncated { base with link := { base.link with receive := .receiving } } (fun t =>
      t = base) = true := by
  decide +kernel

theorem test_transmit_start_fixes_lost :
    holdsAfter .transmitStart { base with sessions := [{ sess 5 50 with out := ⟨[bell], 1, .set, 0, none⟩ }] } (fun t =>
      (t.session? 5).map Session.out =
        some ⟨[{ seq := 0, body := .notice (.attention 9) (some true) }], 1, .reported, 0, none⟩ ∧
      t.link.tx.map (fun x => x.wire.length) = some 17 ∧ t.delivery.attempt = some ⟨5, 0, 10, none⟩) = true := by
  decide +kernel

theorem test_transmission_end :
    holdsAfter (.transmissionEnd ⟨2, 1⟩)
      (sending doneTo3 { base with sessions := [{ sess 3 41 with inFlight := true }] }) (fun t =>
      t.link.tx = none ∧ t.sessions.map Session.inFlight = [false]) = true := by
  decide +kernel

theorem test_contention_loss :
    holdsAfter .contentionLoss
      (sending doneTo3 base) (fun t =>
      t.link.tx = none ∧ t.link.responses = [doneTo3]) = true := by
  decide +kernel

/-- An ATTENTION notice of host 5 in transmission, a later one for its slot behind it. -/
def twoCalls : State :=
  { base with
    sessions := [{ sess 5 50 with out := ⟨[bell, timeout, { bell with seq := 8 }], 9, .set, 2, none⟩ }]
    link := { base.link with tx := some { item := .entry 5 0 true, wire := [] } }
    delivery := { attempt := some { host := 5, seq := 0, tAck := 10, deadline := none }, pointer := some 3 } }

theorem test_contention_loss_leaves_one_attention :
    holdsAfter .contentionLoss twoCalls (fun t =>
      (t.session? 5).map Session.out = some ⟨[bell, timeout], 9, .set, 2, some 0⟩ ∧
      t.delivery = { attempt := none, pointer := some 3 }) = true := by
  decide +kernel

theorem test_link_reset_assert :
    holdsAfter (.linkResetAssert ⟨6, 4⟩) crowded (fun t =>
      t.sessions = [] ∧ t.lm = ⟨[], [], 2, 0⟩ ∧ t.panel.nodeAddress = 6 ∧ t.panel.managerAddress = 4 ∧
      t.link.resetLine = .asserted) = true := by
  decide +kernel

theorem test_link_reset_release :
    holdsAfter .linkResetRelease { base with link := .powerOn true } (fun t =>
      t = base) = true := by
  decide +kernel

theorem test_tack_expiry :
    holdsAfter .tackExpiry waitingAck (fun t =>
      t.now = 10000 ∧
      (t.session? 5).map (fun x => (x.delivery, x.out.attempts, x.out.entries)) =
        some (.stalled, 4, [timeout, bell]) ∧
      t.delivery.attempt = none) = true := by
  decide +kernel

theorem test_lease_expiry :
    holdsAfter (.leaseExpiry 0) crowded (fun t =>
      t.now = 60000000 ∧ t.lm.leases.map Lease.holder = [5] ∧
      bodies t 3 = some [.notice (.lease .expired ⟨4, some 0⟩ 0 1) none]) = true := by
  decide +kernel

theorem test_grace_deadline :
    holdsAfter (.graceDeadline 7) recalled (fun t =>
      t.now = 8000000 ∧ t.lm.leases.length = 0 ∧
      bodies t 3 = some [.notice (.lease .revoked ⟨4, some 0⟩ 0 1) none]) = true := by
  decide +kernel

theorem test_wait_deadline :
    holdsAfter (.waitDeadline 1) crowded (fun t =>
      t.now = 20000000 ∧ t.lm.waits.length = 0 ∧
      (t.session? 5).map Session.tags = some [2] ∧ bodies t 5 = some [.completion 2 .timedOut]) = true := by
  decide +kernel

theorem test_switch_to_service :
    holdsAfter .switchToService leased (fun t =>
      t.panel.service = .service) = true := by
  decide +kernel

theorem test_switch_to_online :
    holdsAfter .switchToOnline
      { crowded with lm := { crowded.lm with leases := [] },
                     panel := { base.panel with service := .service } } (fun t =>
      t.panel.service = .online ∧ t.lm.leases.map Lease.holder = [5] ∧ t.lm.waits.length = 0) = true := by
  decide +kernel

theorem test_presence_rise :
    holdsAfter (.presenceRise 15) base (fun t =>
      t.slots[15] = { state := .settling 100000, presence := true, attention := false }) = true := by
  decide +kernel

theorem test_presence_drop :
    holdsAfter (.presenceDrop 4) (reading false) (fun t =>
      (t.slots[4]).state = .empty ∧ t.lm.leases.length = 0 ∧ t.bp.cycle = none ∧ t.bp.guardHold = none ∧
      answers t = [⟨3, 40, .done, [0x02]⟩]) = true := by
  decide +kernel

theorem test_settling_deadline :
    holdsAfter (.settlingDeadline 0)
      (withSlot base 0 { state := .settling 100000, presence := true, attention := false }) (fun t =>
      t.now = 100000 ∧ (t.slots[0]).state = .identifying ∧
      t.bp.cycle = some { kind := .identify 0, silence := 100004 }) = true := by
  decide +kernel

theorem test_attention_rise :
    holdsAfter (.attentionRise 4) { base with bookings := [⟨3, 4, .standing, .armed⟩] } (fun t =>
      t.bookings = [⟨3, 4, .standing, .fired⟩] ∧
      bodies t 3 = some [.notice (.attention 4) none]) = true := by
  decide +kernel

theorem test_attention_fall :
    holdsAfter (.attentionFall 9) base (fun t =>
      (t.slots[9]).attention = false) = true := by
  decide +kernel

theorem test_identification_start :
    holdsAfter .identificationStart { base with bp := { base.bp with pendingIds := [0, 7] } } (fun t =>
      t.bp.cycle = some { kind := .identify 0, silence := 4 } ∧ t.bp.pendingIds = [7] ∧
      t.presented = some { slot := 0, channel := 0, op := .read, register := 255 }) = true := by
  decide +kernel

theorem test_access_start_check :
    holdsAfter .accessStartCheck { leased with bp := { base.bp with queue := [readEntry] } } (fun t =>
      t.bp.cycle = some (readCycle false) ∧ t.bp.guardHold = some held.hold ∧ t.bp.queue = []) = true := by
  decide +kernel

theorem test_module_answer :
    holdsAfter (.moduleAnswer 4 (.accept 0x1234)) (reading false) (fun t =>
      t.bp.cycle = none ∧ t.bp.guardHold = none ∧ answers t = [⟨3, 40, .done, [0x00, 0x12, 0x34]⟩]) = true := by
  decide +kernel

theorem test_silence_expiry :
    holdsAfter .silenceExpiry identifying (fun t =>
      t.now = 4 ∧ (t.slots[0]).state = .faulted ∧ t.bp.cycle = none) = true := by
  decide +kernel

/-! ### States and operands that meet the hypotheses of the statements -/

theorem accepts_of {s : State} {k kind : Byte} {f : Frame}
    (h : (s.receives && decide (f.payload.length ≤ Config.maxPayload) && accepted s.panel.nodeAddress k kind f) = true) :
    Accepts s k kind f := by
  simp only [Bool.and_eq_true, decide_eq_true_eq] at h
  exact ⟨h.1.1, h.1.2, h.2⟩

theorem newRequest_of {s : State} {kind : Byte} {f : Frame} {x : Session}
    (h : (s.receives && decide (f.payload.length ≤ Config.maxPayload) &&
      accepted s.panel.nodeAddress FrameKind.request kind f && decide (s.session? (frameHost f) = some x) &&
      decide (f.seq = x.lastSeq + 1) && decide (x.inFlight = false)) = true) : NewRequest s kind f x := by
  simp only [Bool.and_eq_true, decide_eq_true_eq] at h
  obtain ⟨⟨⟨⟨⟨a, b⟩, c⟩, d⟩, e⟩, g⟩ := h
  exact { receives := a, short := b, passes := c, found := d, next := e, free := g }

theorem acquirePasses_of {s : State} {x : Session} {a : AcquireFields} {r : Resource}
    (h : (decide (s.panel.service = .online) && decide (resourceCheck s.slots 1 2 a.slot a.channel = .ok r) &&
      decide (1 ≤ a.term.toNat ∧ a.term.toNat ≤ s.panel.config.maxTerm.toNat) &&
      decide (a.urgent = true → x.cls = .manager) && decide (a.urgent = true → a.waitLimit ≠ 0)) = true) :
    AcquirePasses s x a r := by
  simp only [Bool.and_eq_true, decide_eq_true_eq] at h
  obtain ⟨⟨⟨⟨a, b⟩, c⟩, d⟩, e⟩ := h
  exact ⟨a, b, c, d, e⟩

theorem noMatch_of {s : State} {h : Addr} {handle : Byte} {token : Token}
    (k : ∀ l ∈ s.lm.leases, ¬ (handle.toNat = l.handle.val ∧ token = l.token ∧ l.holder = h)) :
    ∀ l, ¬ Matches s h handle token l :=
  fun l m => k l m.live ⟨m.handle_eq, m.token_eq, m.holder_eq⟩

theorem held_matches {s : State} (h : held ∈ s.lm.leases) : Matches s 3 0 1 held := ⟨h, rfl, rfl, rfl⟩

theorem distinctHandles_of {s : State} (h : (s.lm.leases.map Lease.handle).Nodup) : HandlesDistinct s := h

theorem reset_slot_empty : ∀ slot : SlotNo, (State.reset.slots[slot]).state = .empty := by decide +kernel

theorem witness_StepTakesFront : ({ base with pending := [.frameTruncated, .transmitStart] }).pending =
    .frameTruncated :: [.transmitStart] := rfl

theorem reset_nothing_due (e : Instr) : ¬ DueNow State.reset e := by
  cases e with
  | settlingDeadline slot => rintro ⟨d, _, h⟩; rw [reset_slot_empty slot] at h; cases h
  | leaseExpiry h => rintro ⟨l, hl, _⟩; cases hl
  | graceDeadline g => rintro ⟨l, hl, _⟩; cases hl
  | waitDeadline n => rintro ⟨w, hw, _⟩; cases hw
  | tackExpiry => rintro ⟨a, ha, _⟩; cases ha
  | silenceExpiry => rintro ⟨c, hc, _⟩; cases hc
  | _ => exact id

theorem witness_IdleStep :
    (State.reset.pending = [] ∧ ∀ e, ¬ DueNow State.reset e) ∧
    (({ leased with now := 60000000 }).pending = [] ∧ ∃ e, DueNow { leased with now := 60000000 } e) :=
  ⟨⟨rfl, reset_nothing_due⟩, rfl, .leaseExpiry 0, held, List.mem_singleton.mpr rfl, rfl, Nat.le_refl _⟩

theorem witness_EveryCommandCompletes : isDeadline .frameTruncated = false ∧ isDeadline (.presenceDrop 15) = false :=
  ⟨rfl, rfl⟩

theorem witness_PresenceRiseSettles :
    ((base.slots[(0 : SlotNo)]).state = .empty ∧ (base.slots[(0 : SlotNo)]).presence = false) ∧
    ((base.slots[(15 : SlotNo)]).state = .empty ∧ (base.slots[(15 : SlotNo)]).presence = false) := by decide +kernel

/-- Slot 15 settling, faulted or awaiting identification. -/
def slot15 (st : SlotState) : State := withSlot base 15 { state := st, presence := true, attention := false }

theorem witness_PresenceDropWithoutVacate :
    ((slot15 (.settling 7)).slots[(15 : SlotNo)].presence = true ∧
      (slot15 (.settling 7)).slots[(15 : SlotNo)].state = .settling 7) ∧
    ((slot15 .faulted).slots[(15 : SlotNo)].presence = true ∧
      (slot15 .faulted).slots[(15 : SlotNo)].state = .faulted) ∧
    ((slot15 .identifying).slots[(15 : SlotNo)].presence = true ∧
      (slot15 .identifying).slots[(15 : SlotNo)].state = .identifying ∧
      (slot15 .identifying).cycleOn 15 = false) ∧
    (identifying.slots[(0 : SlotNo)].presence = true ∧ identifying.slots[(0 : SlotNo)].state = .identifying ∧
      identifying.bp.cycle = some { kind := .identify 0, silence := 4 }) := by decide +kernel

theorem witness_VacateEmptiesSlot :
    ((crowded.slots[(4 : SlotNo)]).state = .ready 2 0x31 ∧ (crowded.slots[(4 : SlotNo)]).presence = true ∧
      HandlesDistinct crowded ∧ WaitsDistinct crowded ∧ crowded.cycleOn 4 = false) ∧
    ((reading true).slots[(4 : SlotNo)].state = .ready 2 0x31 ∧ (reading true).slots[(4 : SlotNo)].presence = true ∧
      HandlesDistinct (reading true) ∧ WaitsDistinct (reading true) ∧
      (reading true).bp.cycle = some { kind := .access 3 4 0 .read 16 true, silence := 4 }) := by
  unfold HandlesDistinct WaitsDistinct
  decide +kernel

theorem witness_SettlingDeadlineIdentifies :
    (slot15 (.settling 7)).slots[(15 : SlotNo)].state = .settling 7 ∧
    ∀ d, State.reset.slots[(15 : SlotNo)].state ≠ .settling d :=
  ⟨by decide +kernel, fun d h => by rw [reset_slot_empty 15] at h; cases h⟩

theorem witness_AttentionLineRecorded :
    ((base.slots[(15 : SlotNo)]).attention = false ∧ (base.slots[(15 : SlotNo)]).state.isReady = false) ∧
    ((base.slots[(4 : SlotNo)]).attention = false ∧ (base.slots[(4 : SlotNo)]).state.isReady = true ∧
      BookingsDistinct base) ∧
    (base.slots[(9 : SlotNo)]).attention = true := by
  unfold BookingsDistinct
  decide +kernel

/-- An access waits while no cycle is in flight: what a start check finds. -/
def oneAccess (s : State) : State := { s with bp := { base.bp with queue := [readEntry] } }

/-- The part in SERVICE. -/
def inService (s : State) : State := { s with panel := { s.panel with service := .service } }

theorem witness_ArbiterStartsCycles :
    (HandlesDistinct leased ∧ base.bp.cycle = none ∧
      ({ base with bp := { base.bp with pendingIds := [0, 15] } }).bp.pendingIds = 0 :: [15]) ∧
    ((oneAccess leased).bp.queue = readEntry :: [] ∧ (oneAccess leased).panel.service = .online ∧
      ((oneAccess leased).slots[readEntry.slot]).state.isReady = true ∧ held ∈ (oneAccess leased).lm.leases ∧
      held.handle = readEntry.handle ∧ held.token = readEntry.token ∧ held.holder = readEntry.session) ∧
    (oneAccess (inService leased)).panel.service = .service ∧
    ((oneAccess State.reset).panel.service = .online ∧
      ((oneAccess State.reset).slots[readEntry.slot]).state.isReady = false) ∧
    (((oneAccess base).slots[readEntry.slot]).state.isReady = true ∧
      ∀ l ∈ (oneAccess base).lm.leases,
        ¬ (l.handle = readEntry.handle ∧ l.token = readEntry.token ∧ l.holder = readEntry.session)) ∧
    ((reading false).bp.cycle ≠ none ∧ base.bp.pendingIds = [] ∧ base.bp.queue = []) ∧
    identifying.bp.cycle = some { kind := .identify 0, silence := 4 } ∧
    (reading false).bp.cycle = some { kind := .access 3 4 0 .read 16 false, silence := 4 } := by
  unfold HandlesDistinct
  decide +kernel

theorem witness_CyclesEnd :
    (identifying.bp.cycle = some { kind := .identify 0, silence := 4 } ∧
      (identifying.slots[(0 : SlotNo)]).state = .identifying ∧ BookingsDistinct identifying ∧
      (identifying.slots[(0 : SlotNo)]).attention = false ∧
      ((withSlot identifying 0 { state := .identifying, presence := true, attention := true }).slots[(0 : SlotNo)]).attention
        = true ∧
      ((0x0131 : Word16).extractLsb' 8 4).toNat = 1 ∧ ((0x0431 : Word16).extractLsb' 8 4).toNat = 4 ∧
      ((0xF031 : Word16).extractLsb' 8 4).toNat = 0 ∧ ((0x0531 : Word16).extractLsb' 8 4).toNat = 5) ∧
    ((reading false).bp.cycle = some { kind := .access 3 4 0 .read 16 false, silence := 4 } ∧
      (reading false).cycleOn 15 = false ∧ base.bp.cycle = none) := by
  unfold BookingsDistinct
  decide +kernel

/-- The fields of an ACCESS by host 3 under its lease. -/
def accessWith (channel : Byte) (op : Operation) (register : Byte) : AccessFields :=
  { handle := 0, token := 1, channel, op, register }

/-- The frame of an ACCESS of host 3. -/
def accessFrame (a : AccessFields) : Frame := from3 Kind.access (accessRequestPayload a)

/-- The leased state with the lease SHARED. -/
def sharedLease : State := { leased with lm := { leased.lm with leases := [{ held with mode := .shared }] } }

/-- The leased state with the lease on the whole slot. -/
def wholeSlot : State := { leased with lm := { leased.lm with leases := [{ held with resource := ⟨4, none⟩ }] } }

theorem contained_of {s : State} {l : Lease} {b : Byte} {n : BitVec 4} {cls : Byte} (c : ChannelNo)
    (hs : (s.slots[l.resource.slot]).state = .ready n cls)
    (h : (decide (b.toNat = c.val) && decide (c.val < n.toNat) &&
      decide (l.resource.channel = none ∨ l.resource.channel = some c)) = true) : Contained s l b := by
  simp only [Bool.and_eq_true, decide_eq_true_eq] at h
  exact ⟨c, n, cls, h.1.1, hs, h.1.2, h.2⟩

theorem notContained_of {s : State} {l : Lease} {b : Byte}
    (h : ∀ c : ChannelNo, b.toNat = c.val → ∀ n ∈ (s.slots[l.resource.slot]).state.channels?, c.val < n.toNat →
      ¬ (l.resource.channel = none ∨ l.resource.channel = some c)) : ¬ Contained s l b :=
  fun ⟨c, n, _, hb, hs, hn, hc⟩ => h c hb n (by rw [hs]; rfl) hn hc

theorem witness_AccessArrives :
    (NewRequest (inService leased) Kind.access (accessFrame (accessWith 0 .read 16)) (sess 3 40) ∧
      HandlesDistinct (inService leased) ∧ (inService leased).panel.service = .service) ∧
    (NewRequest base Kind.access (accessFrame (accessWith 0 .read 16)) (sess 3 40) ∧
      base.panel.service = .online ∧ ∀ l, ¬ Matches base 3 0 1 l) ∧
    (NewRequest leased Kind.access (accessFrame (accessWith 1 .read 16)) (sess 3 40) ∧ Matches leased 3 0 1 held ∧
      ¬ Contained leased held 1) ∧
    (NewRequest sharedLease Kind.access (accessFrame (accessWith 0 (.write 9) 16)) (sess 3 40) ∧
      Matches sharedLease 3 0 1 { held with mode := .shared } ∧ Contained sharedLease { held with mode := .shared } 0) ∧
    (NewRequest leased Kind.access (accessFrame (accessWith 0 (.write 9) 255)) (sess 3 40) ∧
      Contained leased held 0 ∧ held.mode = .exclusive) ∧
    (NewRequest leased Kind.access (accessFrame (accessWith 0 (.write 9) 254)) (sess 3 40) ∧ Contained leased held 0 ∧
      leased.bp.cycle = none ∧ leased.bp.pendingIds = [] ∧ leased.bp.queue = [] ∧
      (leased.slots[held.resource.slot]).state.isReady = true) ∧
    (Contained wholeSlot { held with resource := ⟨4, none⟩ } 1 ∧ ¬ Contained wholeSlot { held with resource := ⟨4, none⟩ } 2) := by
  refine ⟨⟨newRequest_of (by decide +kernel), distinctHandles_of (by decide), rfl⟩,
    ⟨newRequest_of (by decide +kernel), rfl, noMatch_of (by decide)⟩,
    ⟨newRequest_of (by decide +kernel), held_matches (by decide), notContained_of (by decide +kernel)⟩,
    ⟨newRequest_of (by decide +kernel), ⟨by decide, rfl, rfl, rfl⟩, contained_of (n := 2) (cls := 0x31) 0 rfl (by decide)⟩,
    ⟨newRequest_of (by decide +kernel), contained_of (n := 2) (cls := 0x31) 0 rfl (by decide), rfl⟩,
    ⟨newRequest_of (by decide +kernel), contained_of (n := 2) (cls := 0x31) 0 rfl (by decide), rfl, rfl, rfl,
      by decide +kernel⟩,
    contained_of (n := 2) (cls := 0x31) 1 rfl (by decide), notContained_of (by decide +kernel)⟩

/-! The Lease Manager -/

/-- Channel 0 of slot 4. -/
def ch0 : Resource := ⟨4, some 0⟩

theorem witness_AcquireGranted :
    (NewRequest base Kind.acquire (acquireFrame 3 41 (wants .exclusive 0 false)) (sess 3 40) ∧
      AcquirePasses base (sess 3 40) (wants .exclusive 0 false) ch0 ∧
      base.grantable base.lm.waits ((wants .exclusive 0 false).hold ch0) = true ∧ LowestFree base.lm.leases 0) ∧
    (NewRequest base Kind.acquire (acquireFrame 1 11 (wants .exclusive 255 true)) chief ∧
      AcquirePasses base chief (wants .exclusive 255 true) ch0) := by
  refine ⟨⟨newRequest_of (by decide +kernel), acquirePasses_of (by decide +kernel), by decide +kernel, ?_⟩,
    newRequest_of (by decide +kernel), acquirePasses_of (by decide +kernel)⟩
  unfold LowestFree
  decide +kernel

theorem fullTable_full : TableFull fullTable.lm.leases ∧ HandlesDistinct fullTable := by
  unfold TableFull HandlesDistinct
  decide +kernel

theorem witness_AcquireRefused :
    (NewRequest crowded Kind.acquire (acquireFrame 3 41 (wants .exclusive 0 false)) (sess 3 40) ∧
      AcquirePasses crowded (sess 3 40) (wants .exclusive 0 false) ch0 ∧ (wants .exclusive 0 false).waitLimit = 0 ∧
      crowded.grantable crowded.lm.waits ((wants .exclusive 0 false).hold ch0) = false) ∧
    (NewRequest fullTable Kind.acquire (acquireFrame 3 41 (wants .exclusive 0 false)) (sess 3 40) ∧
      AcquirePasses fullTable (sess 3 40) (wants .exclusive 0 false) ch0 ∧
      fullTable.grantable fullTable.lm.waits ((wants .exclusive 0 false).hold ch0) = true ∧
      TableFull fullTable.lm.leases ∧ HandlesDistinct fullTable) :=
  ⟨⟨newRequest_of (by decide +kernel), acquirePasses_of (by decide +kernel), rfl, by decide +kernel⟩,
    newRequest_of (by decide +kernel), acquirePasses_of (by decide +kernel), by decide +kernel, fullTable_full⟩

/-- The same ACQUIRE with another slot and channel field. -/
def wantsAt (slot channel : Byte) : AcquireFields := { wants .shared 0 false with slot, channel }

/-- The same ACQUIRE with another term. -/
def wantsTerm (term : Word16) : AcquireFields := { wants .shared 0 false with term }

/-- The crowded state in which host 3 has tags outstanding. -/
def tagged (tags : List Tag) : State :=
  { crowded with sessions := [chief, { sess 3 40 with tags }, { sess 5 50 with tags := [2] }] }

theorem witness_AcquireDenied :
    (NewRequest (inService base) Kind.acquire (acquireFrame 3 41 (wants .shared 0 false)) (sess 3 40) ∧
      (inService base).panel.service = .service) ∧
    (NewRequest base Kind.acquire (acquireFrame 3 41 (wantsAt 16 0)) (sess 3 40) ∧ base.panel.service = .online ∧
      resourceCheck base.slots 1 2 16 0 = .error (.fault .badResource (some 1)) ∧
      resourceCheck base.slots 1 2 15 0 = .error (.status .absent)) ∧
    (NewRequest base Kind.acquire (acquireFrame 3 41 (wantsTerm 0)) (sess 3 40) ∧
      resourceCheck base.slots 1 2 4 0 = .ok ch0 ∧ ¬ TermOk base 0 ∧ ¬ TermOk base 601 ∧ TermOk base 1 ∧
      TermOk base 600) ∧
    (NewRequest base Kind.acquire (acquireFrame 3 41 (wants .shared 9 true)) (sess 3 40) ∧ (sess 3 40).cls = .normal) ∧
    (NewRequest base Kind.acquire (acquireFrame 1 11 (wants .shared 0 true)) chief ∧ chief.cls = .manager) ∧
    (NewRequest (tagged [1]) Kind.acquire (acquireFrame 3 41 (wants .shared 9 false)) { sess 3 40 with tags := [1] } ∧
      AcquirePasses (tagged [1]) { sess 3 40 with tags := [1] } (wants .shared 9 false) ch0 ∧
      (tagged [1]).grantable (tagged [1]).lm.waits ((wants .shared 9 false).hold ch0) = false) ∧
    (NewRequest (tagged [3, 4, 5, 6]) Kind.acquire (acquireFrame 3 41 (wants .shared 9 false))
      { sess 3 40 with tags := [3, 4, 5, 6] } ∧ (1 : Tag) ∉ ([3, 4, 5, 6] : List Tag)) :=
  ⟨⟨newRequest_of (by decide +kernel), rfl⟩, ⟨newRequest_of (by decide +kernel), rfl, by decide +kernel, by decide +kernel⟩,
    ⟨newRequest_of (by decide +kernel), by decide +kernel, by unfold TermOk; decide, by unfold TermOk; decide,
      by unfold TermOk; decide, by unfold TermOk; decide⟩,
    ⟨newRequest_of (by decide +kernel), rfl⟩, ⟨newRequest_of (by decide +kernel), rfl⟩,
    ⟨newRequest_of (by decide +kernel), acquirePasses_of (by decide +kernel), by decide +kernel⟩,
    newRequest_of (by decide +kernel), by decide⟩

theorem witness_AcquireDeferred :
    (NewRequest (tagged [3, 4, 5]) Kind.acquire (acquireFrame 3 41 (wants .shared 255 false))
        { sess 3 40 with tags := [3, 4, 5] } ∧
      AcquirePasses (tagged [3, 4, 5]) { sess 3 40 with tags := [3, 4, 5] } (wants .shared 255 false) ch0 ∧
      (tagged [3, 4, 5]).grantable (tagged [3, 4, 5]).lm.waits ((wants .shared 255 false).hold ch0) = false ∧
      (1 : Tag) ∉ ([3, 4, 5] : List Tag)) ∧
    (NewRequest crowded Kind.acquire (acquireFrame 1 11 (wants .shared 1 true)) chief ∧
      AcquirePasses crowded chief (wants .shared 1 true) ch0 ∧
      crowded.grantable crowded.lm.waits ((wants .shared 1 true).hold ch0) = false ∧ (1 : Tag) ∉ chief.tags) :=
  ⟨⟨newRequest_of (by decide +kernel), acquirePasses_of (by decide +kernel), by decide +kernel, by decide⟩,
    newRequest_of (by decide +kernel), acquirePasses_of (by decide +kernel), by decide +kernel, by decide⟩

/-- A RENEW of host 3's lease. -/
def renewFrame (token : Token) (term : Word16) : Frame := from3 Kind.renew ((0 : Byte) :: bytes32 token ++ bytes16 term)

theorem witness_RenewAnswered :
    (NewRequest leased Kind.renew (renewFrame 2 60) (sess 3 40) ∧ HandlesDistinct leased ∧
      ∀ l, ¬ Matches leased 3 0 2 l) ∧
    (NewRequest recalled Kind.renew (renewFrame 1 0) (sess 3 40) ∧ Matches recalled 3 0 1 (held.recall 8000000 7)) ∧
    (NewRequest leased Kind.renew (renewFrame 1 601) (sess 3 40) ∧ Matches leased 3 0 1 held ∧ held.state = .held ∧
      ¬ TermOk leased 601) ∧
    (NewRequest leased Kind.renew (renewFrame 1 600) (sess 3 40) ∧ TermOk leased 600) :=
  ⟨⟨newRequest_of (by decide +kernel), distinctHandles_of (by decide), noMatch_of (by decide)⟩,
    ⟨newRequest_of (by decide +kernel), ⟨by decide, rfl, rfl, rfl⟩⟩,
    ⟨newRequest_of (by decide +kernel), held_matches (by decide), rfl, by unfold TermOk; decide⟩,
    newRequest_of (by decide +kernel), by unfold TermOk; decide⟩

/-- A RELEASE of host 3. -/
def releaseFrame (handle : Byte) (token : Token) : Frame := from3 Kind.release (handle :: bytes32 token)

theorem witness_ReleaseAnswered :
    (NewRequest leased Kind.release (releaseFrame 64 1) (sess 3 40) ∧ HandlesDistinct leased ∧
      ∀ l, ¬ Matches leased 3 64 1 l) ∧
    (NewRequest recalled Kind.release (releaseFrame 0 1) (sess 3 40) ∧ HandlesDistinct recalled ∧
      Matches recalled 3 0 1 (held.recall 8000000 7)) :=
  ⟨⟨newRequest_of (by decide +kernel), distinctHandles_of (by decide), noMatch_of (by decide)⟩,
    newRequest_of (by decide +kernel), distinctHandles_of (by decide), ⟨by decide, rfl, rfl, rfl⟩⟩

theorem witness_CancelAnswered :
    (NewRequest crowded Kind.cancel (req 5 51 Kind.cancel [tagByte 2]) { sess 5 50 with tags := [2] } ∧
      ∃ w ∈ crowded.lm.waits, w.session = 5 ∧ w.tag = 2) ∧
    (NewRequest queued Kind.cancel (req 5 51 Kind.cancel [tagByte 2]) busyQueue ∧ (2 : Tag) ∈ busyQueue.tags ∧
      ∀ w ∈ queued.lm.waits, ¬ (w.session = 5 ∧ w.tag = 2)) ∧
    (NewRequest queued Kind.cancel (req 5 51 Kind.cancel [tagByte 15]) busyQueue ∧ (15 : Tag) ∉ busyQueue.tags) :=
  ⟨⟨newRequest_of (by decide +kernel), by decide⟩, ⟨newRequest_of (by decide +kernel), by decide, by decide⟩,
    newRequest_of (by decide +kernel), by decide⟩

theorem witness_ResourceTablesAndCheck :
    16 ≤ (16 : Byte).toNat ∧ (15 : Byte).toNat = (15 : SlotNo).val ∧ (4 ≤ (4 : Byte).toNat ∧ (4 : Byte) ≠ 0xFF) ∧
    4 ≤ (0xFE : Byte).toNat ∧ (base.slots[(15 : SlotNo)]).state.isReady = false ∧ (3 : Byte).toNat < 4 ∧
    (base.slots[(4 : SlotNo)]).state = .ready 2 0x31 ∧ (2 : Byte).toNat = (2 : ChannelNo).val ∧
    (2 : BitVec 4).toNat ≤ (2 : ChannelNo).val ∧ (1 : ChannelNo).val < (2 : BitVec 4).toNat := by decide +kernel

theorem witness_QueryAnswered :
    (NewRequest base Kind.query (from3 Kind.query [4, 2]) (sess 3 40) ∧
      resourceCheck base.slots 0 1 4 2 = .error (.fault .badResource (some 1))) ∧
    (NewRequest fullTable Kind.query (from3 Kind.query [9, 0xFF]) (sess 3 40) ∧
      resourceCheck fullTable.slots 0 1 9 0xFF = .ok ⟨9, none⟩ ∧
      (fullTable.slots[(9 : SlotNo)]).state = .ready 4 0x31) :=
  ⟨⟨newRequest_of (by decide +kernel), by decide +kernel⟩, newRequest_of (by decide +kernel), by decide +kernel,
    by decide +kernel⟩

theorem witness_DeadlinesRetire :
    (HandlesDistinct crowded ∧ WaitsDistinct crowded ∧ held ∈ crowded.lm.leases ∧
      (∀ l ∈ crowded.lm.leases, l.handle ≠ 63) ∧ (∀ l ∈ crowded.lm.leases, ∀ d g, l.state ≠ .recalled d g) ∧
      waiter ∈ crowded.lm.waits ∧ (∀ v ∈ crowded.lm.waits, v.arrival = waiter.arrival → v = waiter) ∧
      ∀ w ∈ crowded.lm.waits, w.arrival ≠ 0) ∧
    (HandlesDistinct recalled ∧ WaitsDistinct recalled ∧ (∃ l ∈ recalled.lm.leases, l.state = .recalled 8000000 7) ∧
      ∀ l ∈ recalled.lm.leases, ∀ d', l.state = .recalled d' 7 → d' = 8000000) := by
  refine ⟨⟨distinctHandles_of (by decide), ?_, by decide, by decide, ?_, by decide, by decide, by decide⟩,
    distinctHandles_of (by decide), ?_, by decide, ?_⟩
  · unfold WaitsDistinct; decide
  · intro l hl d g h
    obtain rfl : l = held := List.mem_singleton.mp hl
    cases h
  · unfold WaitsDistinct; decide
  · intro l hl d h
    obtain rfl : l = held.recall 8000000 7 := List.mem_singleton.mp hl
    cases h
    rfl

/-- The crowded state without its lease. -/
def freed : State := { crowded with lm := { crowded.lm with leases := [] } }

/-- A wait of host 3 on channel 1 of the same slot. -/
def neighbour : Wait := { waiter with session := 3, resource := ⟨4, some 1⟩, arrival := 2 }

theorem witness_WalkGrantsInPoolOrder :
    (freed.lm.waits = waiter :: [] ∧ freed.panel.service = .online ∧
      (freed.slots[waiter.resource.slot]).state.isReady = true ∧ freed.grantable [] waiter.hold = true ∧
      LowestFree freed.lm.leases 0) ∧
    ((crowded.slots[neighbour.resource.slot]).state.isReady = true ∧ crowded.panel.service = .online ∧
      crowded.grantable [waiter] neighbour.hold = true ∧ LowestFree crowded.lm.leases 1) ∧
    (inService crowded).panel.service = .service ∧
    (State.reset.slots[waiter.resource.slot]).state.isReady = false ∧
    crowded.grantable [] waiter.hold = false ∧ TableFull fullTable.lm.leases := by
  refine ⟨⟨rfl, rfl, by decide +kernel, by decide +kernel, ?_⟩, ⟨by decide +kernel, rfl, by decide +kernel, ?_⟩, rfl,
    by decide +kernel, by decide +kernel, fullTable_full.1⟩
  all_goals unfold LowestFree; decide

theorem witness_TokensFromCounter :
    (∀ l ∈ leased.lm.leases, l.token ≠ leased.lm.tokenCounter) ∧
    (fullTable.lm.leases.length ≤ 64 ∧ ({ fullTable.lm with tokenCounter := 0xFFFFFFFF }).tokenCounter ≠ 0 ∧
      ∃ l ∈ fullTable.lm.leases, l.token = ({ fullTable.lm with tokenCounter := 64 }).tokenCounter) := by decide +kernel

/-! The Session Manager -/

/-- An OPEN. -/
def openFrame (src seq : Byte) : Frame := req src seq Kind.openSession []

/-- Eight sessions. -/
def eight : State := { base with sessions := [8, 9, 10, 11, 12, 13, 14, 15].map (fun h => sess h 0) }

/-- The MANAGER's RESET CONTROLLER is answered and committed, its DONE not yet sent. -/
def committed : State :=
  { base with
    link := { base.link with responses := [{ takenResponse 1 10 .done [] with clears := true }] }
    panel := { base.panel with clearCommitted := true } }

theorem witness_OpenSessions :
    (Accepts base FrameKind.request Kind.openSession (openFrame 15 0) ∧ base.session? 15 = none ∧
      base.sessions.length < 8) ∧
    (Accepts eight FrameKind.request Kind.openSession (openFrame 7 0) ∧ eight.session? 7 = none ∧
      8 ≤ eight.sessions.length) ∧
    (Accepts (reading false) FrameKind.request Kind.openSession (openFrame 3 40) ∧
      (reading false).session? 3 = some { sess 3 40 with inFlight := true, stored := none }) ∧
    (Accepts base FrameKind.request Kind.openSession (openFrame 3 40) ∧ base.session? 3 = some (sess 3 40) ∧
      (sess 3 40).lastSeq = 40 ∧ (sess 3 40).lastKind = 0x01 ∧ (sess 3 40).inFlight = false ∧
      (sess 3 40).stored = some { status := .done, payload := [0, 0] }) ∧
    (Accepts leased FrameKind.request Kind.openSession (openFrame 3 41) ∧ HandlesDistinct leased ∧
      ¬ ((41 : Byte) = (sess 3 40).lastSeq ∧ (sess 3 40).lastKind = 0x01) ∧ leased.panel.clearCommitted = false) ∧
    (Accepts committed FrameKind.request Kind.openSession (openFrame 1 11) ∧ HandlesDistinct committed ∧
      committed.session? 1 = some chief ∧ committed.panel.clearCommitted = true ∧
      ∃ r ∈ committed.link.responses, r.host = 1 ∧ r.owner = .session ∧ r.clears = true) :=
  ⟨⟨accepts_of (by decide +kernel), by decide +kernel, by decide⟩,
    ⟨accepts_of (by decide +kernel), by decide +kernel, by decide⟩,
    ⟨accepts_of (by decide +kernel), by decide +kernel⟩,
    ⟨accepts_of (by decide +kernel), by decide +kernel, rfl, rfl, rfl, rfl⟩,
    ⟨accepts_of (by decide +kernel), distinctHandles_of (by decide), by decide, rfl⟩,
    accepts_of (by decide +kernel), distinctHandles_of (by decide), by decide +kernel, rfl, by decide⟩

theorem witness_CloseRemovesSession :
    NewRequest crowded Kind.closeSession (from3 Kind.closeSession []) (sess 3 40) ∧ HandlesDistinct crowded :=
  ⟨newRequest_of (by decide +kernel), distinctHandles_of (by decide)⟩

/-- Host 3 with a fault recorded. -/
def faulty : Session := { sess 3 40 with fault := some ⟨.badTerm, 0x10, 39, some 4, true⟩ }

theorem witness_FetchFaultAnswered :
    (NewRequest { base with sessions := [faulty] } Kind.fetchFault (from3 Kind.fetchFault []) faulty ∧
      faulty.fault = some ⟨.badTerm, 0x10, 39, some 4, true⟩) ∧
    (NewRequest base Kind.fetchFault (from3 Kind.fetchFault []) (sess 3 40) ∧ (sess 3 40).fault = none) :=
  ⟨⟨newRequest_of (by decide +kernel), rfl⟩, newRequest_of (by decide +kernel), rfl⟩

theorem witness_UnknownAndMalformedRequests :
    (NewRequest base 0x15 (from3 0x15 []) (sess 3 40) ∧ (0x15 : Byte) ∉ requestKinds) ∧
    (requestOf (.acquire (from3 Kind.acquire [16, 4, 0, 2, 0, 60, 0, 2])) =
        some (Kind.acquire, from3 Kind.acquire [16, 4, 0, 2, 0, 60, 0, 2]) ∧
      NewRequest base Kind.acquire (from3 Kind.acquire [16, 4, 0, 2, 0, 60, 0, 2]) (sess 3 40) ∧
      formatFault Kind.acquire [16, 4, 0, 2, 0, 60, 0, 2] = some (some 0)) ∧
    formatFault Kind.acquire [15, 4, 0, 2, 0, 60, 0, 2] = some (some 3) ∧
    formatFault Kind.acquire [15, 4, 0, 1, 0, 60, 0, 2] = some (some 6) ∧
    formatFault Kind.acquire [15, 4, 0, 1, 0, 60, 0] = some none ∧
    formatFault Kind.closeSession [0] = some none ∧ formatFault Kind.fetchFault [0] = some none ∧
    formatFault Kind.resetController [0] = some none ∧ formatFault Kind.renew [] = some none ∧
    formatFault Kind.release [] = some none ∧ formatFault Kind.cancel [16] = some (some 0) ∧
    formatFault Kind.query [4] = some none ∧ formatFault Kind.access [0, 0, 0, 0, 1, 0, 2, 9] = some (some 3) ∧
    formatFault Kind.access [0, 0, 0, 0, 1, 0, 1, 9] = some none ∧
    formatFault Kind.access [0, 0, 0, 0, 1, 0, 2, 9, 9] = some none ∧
    formatFault Kind.book [4, 2] = some (some 1) ∧ formatFault Kind.unbook [] = some none ∧
    formatFault Kind.rearm [4, 4] = some none ∧ formatFault Kind.configure [1, 1, 1, 1] = some none :=
  ⟨⟨newRequest_of (by decide +kernel), by decide⟩, ⟨rfl, newRequest_of (by decide +kernel), by decide⟩, by decide⟩

theorem witness_RequestsNotTaken :
    (requestOf (.query (req 7 200 Kind.query [4, 0])) = some (Kind.query, req 7 200 Kind.query [4, 0]) ∧
      Accepts base FrameKind.request Kind.query (req 7 200 Kind.query [4, 0]) ∧ base.session? 7 = none) ∧
    (Accepts base FrameKind.request Kind.probe (req 15 0 Kind.probe []) ∧ base.session? 15 = none) ∧
    (Accepts (reading false) FrameKind.request Kind.query (from3 Kind.query [4, 0]) ∧
      (reading false).session? 3 = some { sess 3 40 with inFlight := true, stored := none }) ∧
    Accepts (reading false) FrameKind.request Kind.query (req 3 40 Kind.query [4, 0]) ∧
    (Accepts base FrameKind.request Kind.query (req 3 40 Kind.query [4, 0]) ∧ base.session? 3 = some (sess 3 40) ∧
      (sess 3 40).inFlight = false ∧ (sess 3 40).stored = some { status := .done, payload := [0, 0] }) :=
  ⟨⟨rfl, accepts_of (by decide +kernel), by decide +kernel⟩, ⟨accepts_of (by decide +kernel), by decide +kernel⟩,
    ⟨accepts_of (by decide +kernel), by decide +kernel⟩, accepts_of (by decide +kernel),
    accepts_of (by decide +kernel), by decide +kernel, rfl, rfl⟩

theorem witness_SequenceFaultAnswered :
    (requestOf (.query (req 3 42 Kind.query [4, 0])) = some (Kind.query, req 3 42 Kind.query [4, 0]) ∧
      Accepts base FrameKind.request Kind.query (req 3 42 Kind.query [4, 0]) ∧ base.session? 3 = some (sess 3 40) ∧
      (42 : Byte) ≠ (sess 3 40).lastSeq ∧ (42 : Byte) ≠ (sess 3 40).lastSeq + 1) ∧
    (Accepts (reading false) FrameKind.request Kind.query (req 3 39 Kind.query [4, 0]) ∧
      (reading false).session? 3 = some { sess 3 40 with inFlight := true, stored := none }) :=
  ⟨⟨rfl, accepts_of (by decide +kernel), by decide +kernel, by decide, by decide⟩, accepts_of (by decide +kernel),
    by decide +kernel⟩

/-! The Link Interface -/

/-- The link reset line is low. -/
def lineLow : State := { State.reset with link := .powerOn true }

theorem witness_Reception :
    base.receives = true ∧ lineLow.receives = false ∧ (sending doneTo3 base).receives = false ∧
    accepted base.panel.nodeAddress 0x01 0x10 (spoilt (from3 0x10 [])) = false ∧
    96 < (from3 0x10 (List.replicate 97 0)).payload.length ∧
    requestOf (.query (from3 Kind.query [4, 0])) = some (Kind.query, from3 Kind.query [4, 0]) ∧
    accepted base.panel.nodeAddress FrameKind.request Kind.query (spoilt (from3 Kind.query [4, 0])) = false ∧
    accepted base.panel.nodeAddress FrameKind.ack 0x00 (spoilt (ackOf 3 0)) = false ∧
    accepted base.panel.nodeAddress FrameKind.request Kind.openSession (spoilt (openFrame 3 0)) = false ∧
    accepted base.panel.nodeAddress FrameKind.request Kind.query (from3 Kind.query [4, 0]) = true := by
  decide +kernel

theorem witness_AckTaken :
    (Accepts waitingAck FrameKind.ack 0x00 (ackOf 5 7) ∧
      waitingAck.delivery.attempt = some { host := 5, seq := 7, tAck := 10, deadline := some 10000 } ∧
      waitingAck.session? 5 = some busyQueue ∧ busyQueue.out.entries = timeout :: [bell] ∧ timeout.seq = 7 ∧
      (busyQueue.out.entries.map Entry.seq).Nodup) ∧
    (Accepts queued FrameKind.ack 0x00 (ackOf 5 7) ∧ queued.delivery.attempt = none) ∧
    (Accepts waitingResend FrameKind.ack 0x00 (ackOf 5 7) ∧ waitingResend.delivery.attempt = none ∧
      waitingResend.contended 5 = some 7) :=
  ⟨⟨accepts_of (by decide +kernel), rfl, by decide +kernel, rfl, rfl, by decide⟩,
    ⟨accepts_of (by decide +kernel), rfl⟩, accepts_of (by decide +kernel), rfl, by decide +kernel⟩

theorem witness_TransmitStartChooses :
    (base.link.tx = none ∧ base.link.resetLine = .released ∧ base.link.receive = .idle ∧ base.panel.nodeAddress ≠ 0) ∧
    ({ base with link := { base.link with responses := [doneTo3] } }).link.responses = doneTo3 :: [] ∧
    (queued.link.responses = [] ∧ queued.delivery.attempt = none ∧ queued.session? 5 = some busyQueue ∧
      busyQueue.delivery = .delivering ∧ busyQueue.out.entries = timeout :: [bell] ∧
      ∀ k : Addr, k ≠ 0 → HasTurn queued k → turnsBefore queued.delivery.pointer 5 ≤ turnsBefore queued.delivery.pointer k) ∧
    (waitingAck.link.responses = [] ∧ waitingAck.delivery.attempt ≠ none) ∧
    (base.link.responses = [] ∧ ∀ h : Addr, h ≠ 0 → ¬ HasTurn base h) ∧
    ¬ (lineLow.link.tx = none ∧ lineLow.link.resetLine = .released ∧ lineLow.link.receive = .idle ∧
      lineLow.panel.nodeAddress ≠ 0) := by
  have only5 : ∀ k : Addr, (queued.session? k).isSome = true → k = 1 ∨ k = 3 ∨ k = 5 := by decide +kernel
  have one : queued.session? 1 = some chief := by decide +kernel
  have three : queued.session? 3 = some (sess 3 40) := by decide +kernel
  have none_ready : ∀ k : Addr, ∀ x ∈ base.session? k, x.out.entries = [] := by
    intro k x hx
    have h : x ∈ base.sessions := List.mem_of_find?_eq_some hx
    revert x
    intro x _ h
    have : ∀ y ∈ base.sessions, y.out.entries = [] := by decide
    exact this x h
  refine ⟨by decide, rfl, ⟨rfl, rfl, by decide +kernel, rfl, rfl, ?_⟩, ⟨rfl, by decide⟩, ⟨rfl, ?_⟩, by decide⟩
  · rintro k _ ⟨x, hx, _, he⟩
    rcases only5 k (by rw [hx]; rfl) with rfl | rfl | rfl
    · rw [one] at hx; cases hx; exact absurd rfl he
    · rw [three] at hx; cases hx; exact absurd rfl he
    · exact Nat.le_refl _
  · rintro k _ ⟨x, hx, _, he⟩
    exact he (none_ready k x hx)

/-- A response of the second group to host 3. -/
def busyTo3 : Response :=
  { host := 3, seq := 41, status := .busy, payload := [], taken := false, owner := .session, clears := false }

/-- The completion of host 5 in transmission. -/
def sendingEntry : State :=
  { queued with
    link := { queued.link with tx := some { item := .entry 5 7 true, wire := [] } }
    delivery := { attempt := some { host := 5, seq := 7, tAck := 10, deadline := none }, pointer := none } }

theorem witness_TransmissionsEnd :
    ((sending doneTo3 base).link.tx = some { item := .response doneTo3, wire := [] } ∧ doneTo3.taken = true ∧
      doneTo3.owner = .session ∧ doneTo3.status ≠ .deferred ∧
      ¬ (doneTo3.clears = true ∧ (sending doneTo3 base).panel.clearCommitted = true)) ∧
    ((sending busyTo3 base).link.tx = some { item := .response busyTo3, wire := [] } ∧ busyTo3.taken = false ∧
      busyTo3.clears = false) ∧
    ((sending { doneTo3 with clears := true } committed).link.tx =
        some { item := .response { doneTo3 with clears := true }, wire := [] } ∧
      (sending { doneTo3 with clears := true } committed).panel.clearCommitted = true) ∧
    (sendingEntry.link.tx = some { item := .entry 5 7 true, wire := [] } ∧
      sendingEntry.delivery.attempt = some { host := 5, seq := 7, tAck := 10, deadline := none }) ∧
    base.link.tx = none ∧
    ((sending doneTo3 base).link.tx = some { item := .response doneTo3, wire := [] } ∧ doneTo3.owner ≠ .closed ∧
      doneTo3.taken = true) ∧
    ((sending busyTo3 base).link.tx = some { item := .response busyTo3, wire := [] } ∧ busyTo3.owner ≠ .closed ∧
      ∀ q ∈ (sending busyTo3 base).link.responses, ¬ (q.taken = false ∧ q.host = busyTo3.host)) ∧
    (busyTo3.taken = false ∧
      ∃ q ∈ (sending busyTo3 { base with link := { base.link with responses := [{ busyTo3 with seq := 42 }] } }).link.responses,
        q.taken = false ∧ q.host = busyTo3.host) ∧
    (twoCalls.link.tx = some { item := .entry 5 0 true, wire := [] } ∧
      twoCalls.delivery.attempt = some { host := 5, seq := 0, tAck := 10, deadline := none } ∧
      ∃ x ∈ twoCalls.sessions, twoCalls.session? 5 = some x ∧ x.out.entries = bell :: [timeout, { bell with seq := 8 }] ∧
        (x.out.entries.map Entry.seq).Nodup) ∧
    ({ base with link := { base.link with tx := some { item := .entry 5 7 false, wire := [] } } }).link.tx =
      some { item := .entry 5 7 false, wire := [] } ∧
    ((sending { doneTo3 with owner := .closed } base).link.tx =
        some { item := .response { doneTo3 with owner := .closed }, wire := [] } ∧
      ¬ (doneTo3.clears = true ∧ (sending { doneTo3 with owner := .closed } base).panel.clearCommitted = true)) ∧
    ((sending { doneTo3 with owner := .closed, clears := true } committed).link.tx =
        some { item := .response { doneTo3 with owner := .closed, clears := true }, wire := [] } ∧
      (sending { doneTo3 with owner := .closed, clears := true } committed).panel.clearCommitted = true) := by
  decide +kernel

theorem witness_TackExpiryCounts :
    (waitingAck.delivery.attempt = some { host := 5, seq := 7, tAck := 10, deadline := some 10000 } ∧
      waitingAck.session? 5 = some busyQueue ∧ busyQueue.out.entries = timeout :: [bell] ∧ timeout.seq = 7 ∧
      (busyQueue.out.entries.map Entry.seq).Nodup) ∧
    ∀ a, sendingEntry.delivery.attempt = some a → a.deadline = none := by
  refine ⟨⟨rfl, by decide +kernel, rfl, rfl, by decide⟩, ?_⟩
  intro a h
  cases h
  rfl

theorem witness_LinkResetClears : base.link.resetLine = .released ∧ lineLow.link.resetLine = .asserted := ⟨rfl, rfl⟩

/-- An undelivered RECALL that carries LOST. -/
def lostRecall : Entry := { seq := 1, body := .notice (held.noticeOf .recall) (some true) }

/-- A queue that holds the bell and that RECALL. -/
def twoNotices : OutboundQueue :=
  { entries := [bell, lostRecall], counter := 2, marker := .reported, attempts := 0, contended := none }

/-- A queue that holds 8 notices. -/
def eightNotices : OutboundQueue :=
  { entries := (List.range 8).map (fun n => { bell with seq := BitVec.ofNat 8 n }), counter := 8, marker := .clear,
    attempts := 0, contended := none }

theorem witness_NoticesJoin :
    (twoNotices.entries.length < 256 ∧ ∀ e ∈ twoNotices.entries, e.seq ≠ twoNotices.counter) ∧
    (∃ e ∈ twoNotices.entries, (none : Option Byte) ≠ some e.seq ∧ e.isAttention 9 = true) ∧
    ((∀ e ∈ twoNotices.entries, ¬ (some 0 ≠ some e.seq ∧ e.isAttention 9 = true)) ∧ twoNotices.notices < 8) ∧
    ((∀ e ∈ eightNotices.entries, ¬ ((none : Option Byte) ≠ some e.seq ∧ e.isAttention 4 = true)) ∧
      8 ≤ eightNotices.notices) ∧
    (twoNotices.entries = [bell] ++ lostRecall :: [] ∧ (none : Option Byte) ≠ some lostRecall.seq ∧
      lostRecall.isRecall 0 1 = true ∧
      (∀ b ∈ [bell], ¬ ((none : Option Byte) ≠ some b.seq ∧ b.isRecall 0 1 = true)) ∧
      lostRecall.lost = some true ∧ twoNotices.marker = .reported) ∧
    ({ twoNotices with entries := [lostRecall, bell] }).entries = [] ++ lostRecall :: [bell] := by decide

/-! The Booking Unit and the Panel Block -/

theorem witness_BookArms :
    (NewRequest base Kind.book (from3 Kind.book [16, 0x01]) (sess 3 40) ∧ 16 ≤ (16 : Byte).toNat) ∧
    (NewRequest base Kind.book (from3 Kind.book [15, 0x00]) (sess 3 40) ∧ (15 : Byte).toNat = (15 : SlotNo).val ∧
      ((base.slots[(15 : SlotNo)]).state.isReady && (base.slots[(15 : SlotNo)]).attention) = false) ∧
    (NewRequest base Kind.book (from3 Kind.book [9, 0x01]) (sess 3 40) ∧
      ((base.slots[(9 : SlotNo)]).state.isReady && (base.slots[(9 : SlotNo)]).attention) = true) :=
  ⟨⟨newRequest_of (by decide +kernel), by decide⟩, ⟨newRequest_of (by decide +kernel), rfl, by decide +kernel⟩,
    newRequest_of (by decide +kernel), by decide +kernel⟩

/-- Host 3's bookings: one ARMED, two FIRED. -/
def booked : State := { base with bookings := [⟨3, 0, .once, .armed⟩, ⟨3, 4, .standing, .fired⟩, ⟨3, 9, .standing, .fired⟩] }

/-- The bell, sent once with LOST. -/
def lostBell : Entry := { bell with body := .notice (.attention 9) (some true) }

/-- Does UNBOOK of slot 9 remove the entry, with none in flight? -/
def removable (e : Entry) : Bool := decide ((none : Option Byte) ≠ some e.seq) && e.isAttention 9

theorem test_unbook_of_lost_entry :
    let q : OutboundQueue :=
      { entries := [lostBell, timeout], counter := 9, marker := .reported, attempts := 1, contended := none }
    (List.finRange 16).all (fun slot =>
      (q.removeAttention none slot).marker = .reported ∧
      (q.unbook none slot).marker = if lostBell.isAttention slot then .set else .reported) = true := by
  decide

theorem witness_UnbookAndRearm_queue :
    (∀ e ∈ twoNotices.entries, removable e = true → e.lost ≠ some true) ∧
    ([lostBell, timeout].countP removable ≤ 1 ∧
      ∃ e ∈ [lostBell, timeout], removable e = true ∧ e.lost = some true) ∧
    (∀ e, [timeout, lostBell].head? = some e → removable e = false) ∧
    ([lostBell, timeout].head? = some lostBell ∧ removable lostBell = true ∧
      ([lostBell, timeout].map Entry.seq).Nodup) := by
  refine ⟨by decide, by decide, ?_, by decide⟩
  intro e he
  obtain rfl : timeout = e := Option.some.inj he
  decide

theorem witness_UnbookAndRearm :
    (requestOf (.unbook (from3 Kind.unbook [16])) = some (Kind.unbook, from3 Kind.unbook [16]) ∧
      NewRequest booked Kind.unbook (from3 Kind.unbook [16]) (sess 3 40) ∧ 16 ≤ (16 : Byte).toNat) ∧
    NewRequest booked Kind.unbook (from3 Kind.unbook [15]) (sess 3 40) ∧
    (NewRequest booked Kind.rearm (from3 Kind.rearm [15]) (sess 3 40) ∧ BookingsDistinct booked ∧
      ∀ k ∈ booked.bookings, ¬ (k.session = 3 ∧ k.slot = 15)) ∧
    (NewRequest booked Kind.rearm (from3 Kind.rearm [0]) (sess 3 40) ∧
      (⟨3, 0, .once, .armed⟩ : Booking) ∈ booked.bookings) ∧
    (NewRequest booked Kind.rearm (from3 Kind.rearm [4]) (sess 3 40) ∧
      (⟨3, 4, .standing, .fired⟩ : Booking) ∈ booked.bookings ∧
      ((booked.slots[(4 : SlotNo)]).state.isReady && (booked.slots[(4 : SlotNo)]).attention) = false) ∧
    (NewRequest booked Kind.rearm (from3 Kind.rearm [9]) (sess 3 40) ∧
      (⟨3, 9, .standing, .fired⟩ : Booking) ∈ booked.bookings ∧
      ((booked.slots[(9 : SlotNo)]).state.isReady && (booked.slots[(9 : SlotNo)]).attention) = true) := by
  refine ⟨⟨rfl, newRequest_of (by decide +kernel), by decide⟩, newRequest_of (by decide +kernel),
    ⟨newRequest_of (by decide +kernel), ?_, by decide⟩, ⟨newRequest_of (by decide +kernel), by decide⟩,
    ⟨newRequest_of (by decide +kernel), by decide, by decide +kernel⟩, newRequest_of (by decide +kernel), by decide,
    by decide +kernel⟩
  unfold BookingsDistinct
  decide

theorem witness_ProbeAnswered : NewRequest crowded Kind.probe (from3 Kind.probe [1, 2]) (sess 3 40) :=
  newRequest_of (by decide +kernel)

/-- A CONFIGURE of the MANAGER. -/
def configureFrame (c : ConfigRecord) : Frame := req 1 11 Kind.configure ([c.tGrace, c.tAck, c.attempts] ++ bytes16 c.maxTerm)

theorem witness_ConfigureAnswered :
    (NewRequest base Kind.configure (from3 Kind.configure [1, 1, 1, 0, 1]) (sess 3 40) ∧ (sess 3 40).cls = .normal) ∧
    (NewRequest leased Kind.configure (configureFrame ⟨1, 1, 1, 1⟩) chief ∧ chief.cls = .manager ∧
      ¬ (leased.lm.leases = [] ∧ leased.lm.waits = [])) ∧
    (NewRequest base Kind.configure (configureFrame ⟨0, 51, 9, 4096⟩) chief ∧ base.lm.leases = [] ∧
      base.lm.waits = []) ∧
    NewRequest base Kind.configure (configureFrame ⟨60, 51, 9, 4096⟩) chief ∧
    NewRequest base Kind.configure (configureFrame ⟨60, 50, 9, 4096⟩) chief ∧
    NewRequest base Kind.configure (configureFrame ⟨60, 50, 8, 4096⟩) chief ∧
    NewRequest base Kind.configure (configureFrame ⟨60, 50, 8, 4095⟩) chief :=
  ⟨⟨newRequest_of (by decide +kernel), rfl⟩, ⟨newRequest_of (by decide +kernel), rfl, by decide⟩,
    ⟨newRequest_of (by decide +kernel), rfl, rfl⟩, newRequest_of (by decide +kernel),
    newRequest_of (by decide +kernel), newRequest_of (by decide +kernel), newRequest_of (by decide +kernel)⟩

theorem witness_ResetControllerCommits :
    (NewRequest base Kind.resetController (from3 Kind.resetController []) (sess 3 40) ∧ (sess 3 40).cls = .normal) ∧
    (NewRequest leased Kind.resetController (req 1 11 Kind.resetController []) chief ∧ chief.cls = .manager) :=
  ⟨⟨newRequest_of (by decide +kernel), rfl⟩, newRequest_of (by decide +kernel), rfl⟩

theorem witness_ServiceSwitchMoves : (inService base).panel.service = .service ∧ base.panel.service = .online :=
  ⟨rfl, rfl⟩

/-! The laws -/

/-- A state in which every law has something to say: a lease with its ACCESS cycle and guard, a waiter, a booking, an
identification that waits behind the cycle, and a completion in flight. -/
def lawful : State :=
  { withSlot (reading false) 7 { state := .identifying, presence := true, attention := false } with
    pending := [.frameTruncated]
    lm := { leased.lm with waits := [waiter], arrivalCounter := 1 }
    bp := { (reading false).bp with pendingIds := [7] }
    bookings := [⟨3, 4, .standing, .armed⟩]
    sessions := [chief, { sess 3 40 with inFlight := true, stored := none },
      { sess 5 50 with tags := [6, 2],
                       out := { entries := [{ timeout with body := .completion 6 .timedOut }, bell], counter := 8,
                                marker := .clear, attempts := 1, contended := none } }]
    delivery := { attempt := some { host := 5, seq := 7, tAck := 10, deadline := none }, pointer := some 5 } }

theorem lawful_leases : LeasesCompatible lawful ∧ HandlesDistinct lawful ∧ TokensDistinct lawful ∧
    ResourcesValid lawful := by
  refine ⟨?_, ?_, ⟨?_, ?_, ?_⟩, ⟨?_, ?_⟩⟩
  · unfold LeasesCompatible; decide
  · unfold HandlesDistinct; decide
  all_goals decide +kernel

theorem lawful_guard : GuardLaw lawful := by
  constructor
  · intro g hg l hl
    obtain rfl : held.hold = g := Option.some.inj hg
    obtain rfl : l = held := List.mem_singleton.mp hl
    exact .inr ⟨rfl, _, rfl, rfl⟩
  · intro g hg _
    obtain rfl : held.hold = g := Option.some.inj hg
    decide

theorem lawful_tables : UrgentFirst lawful ∧ BookingsDistinct lawful ∧ ConfigLaw lawful ∧ WaitsDistinct lawful := by
  unfold UrgentFirst BookingsDistinct ConfigLaw WaitsDistinct
  decide +kernel

theorem lawful_sessions : SessionsDistinct lawful ∧ RecordsOwned lawful ∧ TagLaw lawful ∧ QueueLaw lawful := by
  refine ⟨⟨?_, ?_, ?_⟩, ⟨?_, ?_, ?_, ?_⟩, ?_, ?_⟩
  · decide
  · decide
  · decide
  · decide +kernel
  · decide +kernel
  · decide +kernel
  · decide +kernel
  · unfold TagLaw; decide +kernel
  · exact ⟨by decide, by decide, by decide +kernel⟩

theorem lawful_classes : ClassLaw lawful := by
  unfold ClassLaw
  decide

theorem lawful_terms : TermLaw lawful := by
  constructor
  all_goals unfold TermOk; decide

theorem lawful_head : HeadInFlight lawful := by
  intro a ha
  obtain rfl : ({ host := 5, seq := 7, tAck := 10, deadline := none } : Attempt) = a := Option.some.inj ha
  exact ⟨_, rfl, rfl⟩

theorem lawful_slots : ∀ slot : SlotNo,
    ((lawful.slots[slot]).state = .empty ↔ (lawful.slots[slot]).presence = false) ∧
    ((lawful.slots[slot]).state = .identifying ↔ slot = 7) ∧
    (∀ n, (lawful.slots[slot]).state.channels? = some n → 1 ≤ n.toNat ∧ n.toNat ≤ 4) := by
  have h : ∀ slot : SlotNo,
      ((lawful.slots[slot]).state = .empty ↔ (lawful.slots[slot]).presence = false) ∧
      ((lawful.slots[slot]).state = .identifying ↔ slot = 7) ∧
      ∀ n ∈ (lawful.slots[slot]).state.channels?, 1 ≤ n.toNat ∧ n.toNat ≤ 4 := by decide +kernel
  exact h

theorem lawful_backplane : BackplaneLaw lawful ∧ IdentificationLaw lawful ∧ SlotLaw lawful := by
  refine ⟨⟨rfl, fun h => by cases h⟩, ⟨by decide, ?_, ?_⟩, ?_⟩
  · intro slot t h
    cases h
  · intro slot
    rw [(lawful_slots slot).2.1]
    constructor
    · rintro rfl; exact .inl (List.mem_singleton.mpr rfl)
    · rintro (h | ⟨t, h⟩)
      · exact List.mem_singleton.mp h
      · cases h
  · intro slot
    refine ⟨(lawful_slots slot).1, fun n c h => (lawful_slots slot).2.2 n ?_⟩
    rw [h]; rfl

theorem lawful_flight : FlightLaw lawful := by
  unfold FlightLaw
  decide +kernel

theorem lawful_arrival : ArrivalLaw lawful := by
  refine ⟨by decide, by decide, by decide, ?_⟩
  intro l hl d g h
  obtain rfl : l = held := List.mem_singleton.mp hl
  cases h

/-- Two leases marked by one recall. -/
def twoRecalled : State :=
  { recalled with lm := { recalled.lm with
      arrivalCounter := 7
      waits := [{ waiter with urgent := true, arrival := 7 }, { waiter with tag := 3, arrival := 2 }]
      leases := [held.recall 8000000 7, { held.recall 8000000 7 with handle := 1, token := 2, resource := ⟨4, some 1⟩ }] } }

theorem twoRecalled_arrival : ArrivalLaw twoRecalled := by
  have all : ∀ l ∈ twoRecalled.lm.leases, l.state = .recalled 8000000 7 := by decide
  refine ⟨by decide, by decide, by decide, ?_⟩
  intro l hl d g h
  rw [all l hl] at h
  cases h
  refine ⟨by decide, fun k hk d' h' => ?_⟩
  rw [all k hk] at h'
  cases h'
  rfl

theorem sendingEntry_transmission : TransmissionLaw sendingEntry := by
  refine ⟨fun _ => rfl, ?_, ?_, .nil⟩
  · intro a h _
    cases h
    exact ⟨_, rfl⟩
  · intro h n wire e
    cases e
    exact ⟨_, rfl, rfl, rfl, rfl⟩

theorem lawful_silent : SilentLaw lawful := ⟨fun h => absurd h (by decide), fun h => absurd h (by decide)⟩

theorem lawful_steps : ∃ t, step lawful = .next t := ⟨_, rfl⟩

theorem witness_StepKeepsLeasesCompatible : LeasesCompatible lawful ∧ GuardLaw lawful ∧ ∃ t, step lawful = .next t :=
  ⟨lawful_leases.1, lawful_guard, lawful_steps⟩

theorem witness_LeaseTableHolds64 :
    (HandlesDistinct fullTable ∧ ∃ t, step fullTable = .next t) ∧
    (TableFull fullTable.lm.leases ∧
      ∃ t, exec (.acquire (acquireFrame 3 41 (wants .exclusive 9 false))) fullTable = .next t) :=
  ⟨⟨fullTable_full.2, _, rfl⟩, fullTable_full.1, _, rfl⟩

theorem witness_StepKeepsTokensDistinct : HandlesDistinct lawful ∧ TokensDistinct lawful ∧ ∃ t, step lawful = .next t :=
  ⟨lawful_leases.2.1, lawful_leases.2.2.1, lawful_steps⟩

theorem witness_StepKeepsResourcesValid : ResourcesValid lawful ∧ ∃ t, step lawful = .next t :=
  ⟨lawful_leases.2.2.2, lawful_steps⟩

theorem witness_StepKeepsTableForms :
    (UrgentFirst lawful ∧ BookingsDistinct lawful ∧ ConfigLaw lawful ∧ TermLaw lawful) ∧ ∃ t, step lawful = .next t :=
  ⟨⟨lawful_tables.1, lawful_tables.2.1, lawful_tables.2.2.1, lawful_terms⟩, lawful_steps⟩

theorem witness_StepKeepsSessionLaws : (SessionsDistinct lawful ∧ RecordsOwned lawful ∧ TagLaw lawful ∧
    QueueLaw lawful ∧ WaitsDistinct lawful ∧ ClassLaw lawful) ∧ (∃ t, step lawful = .next t) ∧
    ∃ x ∈ lawful.sessions, x.cls = .manager :=
  ⟨⟨lawful_sessions.1, lawful_sessions.2.1, lawful_sessions.2.2.1, lawful_sessions.2.2.2, lawful_tables.2.2.2,
    lawful_classes⟩, lawful_steps, by decide⟩

theorem waitingResend_contended : HeadInFlight waitingResend ∧ ContendedLaw waitingResend := by
  refine ⟨(fun a h => by cases h), ?_⟩
  intro h x n hx hn
  have hm : x ∈ waitingResend.sessions := List.mem_of_find?_eq_some hx
  have all : ∀ y ∈ waitingResend.sessions, y.out.contended ≠ none →
      headNumber y.out.entries = y.out.contended := by decide
  exact ⟨(all x hm (by rw [hn]; simp)).trans hn, fun h => by cases h⟩

theorem witness_StepKeepsHeadInFlight :
    (HeadInFlight lawful ∧ ∃ t, step lawful = .next t) ∧
    (HeadInFlight waitingResend ∧ ContendedLaw waitingResend ∧ waitingResend.contended 5 = some 7 ∧
      ∃ t, step waitingResend = .next t) :=
  ⟨⟨lawful_head, lawful_steps⟩, waitingResend_contended.1, waitingResend_contended.2, by decide +kernel, by
    unfold step
    exact ⟨_, rfl⟩⟩

theorem witness_StepKeepsBackplaneLaws : (BackplaneLaw lawful ∧ IdentificationLaw lawful ∧ SlotLaw lawful) ∧
    ∃ t, step lawful = .next t :=
  ⟨lawful_backplane, lawful_steps⟩

theorem witness_StepKeepsFlightLaw : FlightLaw lawful ∧ ∃ t, step lawful = .next t := ⟨lawful_flight, lawful_steps⟩

theorem witness_StepKeepsSilentLaw :
    (SilentLaw lawful ∧ ∃ t, step lawful = .next t) ∧ (SilentLaw lineLow ∧ ∃ t, step lineLow = .next t) :=
  ⟨⟨lawful_silent, lawful_steps⟩, ⟨fun h => absurd h (by decide), fun _ => ⟨rfl, rfl, rfl, rfl⟩⟩, _, rfl⟩

theorem witness_StepKeepsArrivalLaw :
    (lawful.lm.arrivalCounter ≠ BitVec.allOnes 64 ∧ UrgentFirst lawful ∧ ArrivalLaw lawful ∧
      ∃ t, step lawful = .next t) ∧
    (twoRecalled.lm.arrivalCounter ≠ BitVec.allOnes 64 ∧ UrgentFirst twoRecalled ∧ ArrivalLaw twoRecalled ∧
      ∃ t, step twoRecalled = .next t) :=
  ⟨⟨by decide, lawful_tables.1, lawful_arrival, lawful_steps⟩, by decide, by unfold UrgentFirst; decide,
    twoRecalled_arrival, _, rfl⟩

theorem witness_StepKeepsTransmissionLaw : TransmissionLaw sendingEntry ∧ ∃ t, step sendingEntry = .next t :=
  ⟨sendingEntry_transmission, _, rfl⟩

/-- Host 5's READ waits behind host 3's cycle, each under its SHARED lease on the slot as a whole. -/
def twoReaders : State :=
  { reading false with
    lm := { leased.lm with
      tokenCounter := 3
      leases := [{ held with resource := ⟨4, none⟩, mode := .shared },
        { held with handle := 1, token := 2, holder := 5, resource := ⟨4, none⟩, mode := .shared }] }
    bp := { (reading false).bp with
      guardHold := some ⟨⟨4, none⟩, .shared⟩
      queue := [{ readEntry with session := 5, handle := 1, token := 2, channel := 1 }] } }

theorem twoReaders_access : HandlesDistinct twoReaders ∧ ResourcesValid twoReaders ∧ AccessLaw twoReaders := by
  refine ⟨?_, ⟨by decide +kernel, by decide +kernel⟩, by decide +kernel, by decide +kernel, ?_⟩
  · unfold HandlesDistinct; decide +kernel
  · have all : ∀ e ∈ twoReaders.bp.queue, ∀ l ∈ twoReaders.lm.leases, l.handle = e.handle →
        l.resource.slot = e.slot ∧ l.resource.contains (twoReaders.slots[e.slot]).state e.channel = true ∧
          (e.op.writes = true → l.mode = .exclusive) := by decide +kernel
    intro e he l hl hh _ _
    exact ⟨(all e he l hl hh).1, (all e he l hl hh).2.1, (all e he l hl hh).2.2⟩

theorem witness_StepKeepsAccessLaw :
    twoReaders.lm.tokenCounter.toNat + 64 < 4294967296 ∧
    (HandlesDistinct twoReaders ∧ ResourcesValid twoReaders ∧ AccessLaw twoReaders) ∧
    ∃ t, step { twoReaders with pending := [.moduleAnswer 4 .refuse] } = .next t :=
  ⟨by decide, twoReaders_access, _, rfl⟩

theorem witness_CyclesStartUnderLiveLeases :
    (twoReaders.lm.tokenCounter.toNat + 64 < 4294967296 ∧
      (HandlesDistinct twoReaders ∧ ResourcesValid twoReaders ∧ AccessLaw twoReaders) ∧
      (∃ t, exec (.moduleAnswer 4 .refuse) twoReaders = .next t ∧
        t.bp.cycle = some { kind := .access 5 4 1 .read 16 false, silence := 4 }) ∧
      ∃ t, exec .frameTruncated twoReaders = .next t ∧
        t.bp.cycle = some { kind := .access 3 4 0 .read 16 false, silence := 4 }) :=
  ⟨by decide, twoReaders_access, ⟨_, rfl, by decide +kernel⟩, _, rfl, rfl⟩

theorem witness_RequestsSpareOthersLeases :
    (HandlesDistinct leased ∧ held ∈ leased.lm.leases) ∧
    (requestOf (.acquire (acquireFrame 1 11 (wants .shared 20 true))) =
        some (Kind.acquire, acquireFrame 1 11 (wants .shared 20 true)) ∧
      (∃ t, exec (.acquire (acquireFrame 1 11 (wants .shared 20 true))) leased = .next t) ∧
      held.holder ≠ frameHost (acquireFrame 1 11 (wants .shared 20 true))) ∧
    ((∃ t, exec (.openSession ⟨2, 1⟩ (openFrame 1 99)) leased = .next t) ∧ held.holder ≠ frameHost (openFrame 1 99)) :=
  ⟨⟨distinctHandles_of (by decide), by decide⟩, ⟨rfl, ⟨_, rfl⟩, by decide⟩, ⟨_, rfl⟩, by decide⟩

end Sys2Proof.Tests
end

section
/-! PROOFS. The Slot Directory: a presence rise of an EMPTY slot (R6). -/

namespace Sys2Proof.Machine

/-- What a change of a slot makes of the state rests on the value at that slot's record alone. -/
theorem State.setSlot_congr {s : State} {slot : SlotNo} {f g : SlotRecord → SlotRecord}
    (h : f s.slots[slot] = g s.slots[slot]) : s.setSlot slot f = s.setSlot slot g := by
  simp only [State.setSlot, h]

/-- The rise of an EMPTY slot whose presence was released (R6). -/
theorem State.presenceRise_of_empty {s : State} {slot : SlotNo} (hempty : s.slots[slot].state = .empty)
    (hreleased : s.slots[slot].presence = false) :
    s.presenceRise slot =
      s.setSlot slot (fun r => { r with presence := true, state := .settling (s.now + Config.tSettle) }) := by
  rw [State.presenceRise, if_neg (Bool.eq_false_iff.mp hreleased)]
  exact State.setSlot_congr (by rw [hempty])

/-- A slot that is not READY has no channel count. -/
theorem SlotState.channels?_eq_none {st : SlotState} (h : st.isReady = false) : st.channels? = none := by
  cases st with
  | ready n c => cases h
  | empty | settling d | identifying | faulted => rfl

/-- No resource of a slot that is not READY is valid (R4). -/
theorem Resource.valid_of_not_ready {r : Resource} {slots : Vector SlotRecord 16}
    (h : slots[r.slot].state.isReady = false) : r.valid slots = false := by
  simp only [Resource.valid, SlotState.channels?_eq_none h]

/-- Byte 8 + n of the PROBE payload is the slot byte of slot n (R114). -/
theorem State.probePayload_slot (s : State) (slot : SlotNo) :
    s.probePayload[8 + slot.val]? = some s.slots[slot].state.probeByte := by
  rw [State.probePayload, List.getElem?_append_right (by simp [bytes16])]
  simp [bytes16]

/-- Settles O6: the rise sets the slot's record as R6 says; a SETTLING slot has no valid resource, and its slot byte
is that of SETTLING. -/
theorem presenceRiseSettles : Obligations.PresenceRiseSettles := by
  intro s slot hempty hreleased
  refine ⟨_, rfl, State.presenceRise_of_empty hempty hreleased, ?_, ?_⟩
  · rintro r rfl
    apply Resource.valid_of_not_ready
    rw [State.presenceRise_of_empty hempty hreleased, State.setSlot_same]
    rfl
  · rw [State.probePayload_slot, State.presenceRise_of_empty hempty hreleased, State.setSlot_same]
    rfl

end Sys2Proof.Machine
end

section
/-! PROOFS. The Lease Table (R21): what every step can do to its records, and why they never pass 64. -/

namespace Sys2Proof.Machine

/-! ### The changes of the Lease Table -/

/-- A change of the Lease Table that displaces no record: a grant under a free handle joins at the end of grant order
(R19, R20), or state fields change (R70). -/
inductive KeepingChange : List Lease → List Lease → Prop
  | grant {ls : List Lease} {l : Lease} (hfree : freeHandle ls = some l.handle) : KeepingChange ls (ls ++ [l])
  | mark {ls : List Lease} (f : Lease → Lease) (hf : ∀ l, (f l).sansState = l.sansState) :
      KeepingChange ls (ls.map f)

/-- A change of the Lease Table: one that displaces nothing, a removal of records (R35, R41), or a rewriting that leaves
every record its handle (R33). -/
inductive LeaseChange : List Lease → List Lease → Prop
  | keeping {ls ls' : List Lease} (h : KeepingChange ls ls') : LeaseChange ls ls'
  | retire {ls : List Lease} (p : Lease → Bool) : LeaseChange ls (ls.filter p)
  | renew {ls : List Lease} (f : Lease → Lease) (hf : ∀ l, (f l).handle = l.handle) : LeaseChange ls (ls.map f)

/-- The Lease Table of `t` comes from that of `s` by changes of one sort, in sequence. -/
def LeasesBy (R : List Lease → List Lease → Prop) (s t : State) : Prop :=
  Relation.ReflTransGen R s.lm.leases t.lm.leases

/-- The Lease Table of `t` comes from that of `s` with no record displaced. -/
abbrev LeasesStand : State → State → Prop := LeasesBy KeepingChange

/-- The Lease Table of `t` comes from that of `s` by grants, marks, retirements and renewals. -/
abbrev LeasesEvolve : State → State → Prop := LeasesBy LeaseChange

/-! ### What the changes keep -/

/-- A change of the state field alone leaves the handle. -/
theorem Lease.handle_eq_of_sansState {a b : Lease} (h : a.sansState = b.sansState) : a.handle = b.handle :=
  show a.sansState.handle = b.sansState.handle from congrArg Lease.handle h

/-- Records that keep their handles carry the same list of handles. -/
theorem map_handle_map {f : Lease → Lease} (hf : ∀ l, (f l).handle = l.handle) (ls : List Lease) :
    (ls.map f).map Lease.handle = ls.map Lease.handle := by
  rw [List.map_map]
  exact List.map_congr_left fun l _ => hf l

/-- A full table offers no handle. -/
theorem TableFull.freeHandle_eq_none {ls : List Lease} (hfull : TableFull ls) : freeHandle ls = none := by
  cases hf : freeHandle ls with
  | none => rfl
  | some h =>
    obtain ⟨l, hl, hlh⟩ := hfull h
    exact absurd (List.mem_map.2 ⟨l, hl, hlh⟩) (freeHandle_free hf)

/-- Handles stay distinct: a grant takes a free one, and no other change makes one. -/
theorem LeaseChange.nodup {ls ls' : List Lease} (h : LeaseChange ls ls') (hnd : (ls.map Lease.handle).Nodup) :
    (ls'.map Lease.handle).Nodup := by
  cases h with
  | keeping h =>
    cases h with
    | grant hfree =>
      rw [List.map_append]
      exact hnd.append (List.nodup_singleton _) (List.disjoint_singleton.2 (freeHandle_free hfree))
    | mark f hf => rwa [map_handle_map fun l => Lease.handle_eq_of_sansState (hf l)]
  | retire p => exact hnd.sublist (List.filter_sublist.map _)
  | renew f hf => rwa [map_handle_map hf]

/-- A change that displaces nothing leaves every record but for its state field, before any new one. -/
theorem KeepingChange.sansState_prefix {ls ls' : List Lease} (h : KeepingChange ls ls') :
    ls.map Lease.sansState <+: ls'.map Lease.sansState := by
  cases h with
  | grant _ => rw [List.map_append]; exact List.prefix_append _ _
  | mark f hf =>
    have hsame : (ls.map f).map Lease.sansState = ls.map Lease.sansState := by
      rw [List.map_map]
      exact List.map_congr_left fun l _ => hf l
    rw [hsame]

/-- A full table stays full and takes no new record. -/
theorem KeepingChange.full {ls ls' : List Lease} (h : KeepingChange ls ls') (hfull : TableFull ls) :
    TableFull ls' ∧ ls'.length = ls.length := by
  cases h with
  | grant hfree => rw [hfull.freeHandle_eq_none] at hfree; cases hfree
  | mark f hf =>
    refine ⟨fun hd => ?_, List.length_map f⟩
    obtain ⟨l, hl, hlh⟩ := hfull hd
    exact ⟨f l, List.mem_map_of_mem hl, (Lease.handle_eq_of_sansState (hf l)).trans hlh⟩

/-- Distinct handles are at most 64 (R19, R21). -/
theorem HandlesDistinct.length_le {s : State} (h : HandlesDistinct s) : s.lm.leases.length ≤ 64 := by
  simpa using List.Nodup.length_le_card h

theorem LeasesEvolve.handlesDistinct {s t : State} (h : LeasesEvolve s t) (hs : HandlesDistinct s) :
    HandlesDistinct t := by
  unfold LeasesEvolve LeasesBy at h
  unfold HandlesDistinct at hs ⊢
  generalize t.lm.leases = ls at h ⊢
  induction h with
  | refl => exact hs
  | tail _ hc ih => exact hc.nodup ih

theorem LeasesStand.sansState_prefix {s t : State} (h : LeasesStand s t) :
    s.lm.leases.map Lease.sansState <+: t.lm.leases.map Lease.sansState := by
  unfold LeasesStand LeasesBy at h
  generalize t.lm.leases = ls at h ⊢
  induction h with
  | refl => exact List.prefix_refl _
  | tail _ hc ih => exact ih.trans hc.sansState_prefix

theorem LeasesStand.full {s t : State} (h : LeasesStand s t) (hfull : TableFull s.lm.leases) :
    TableFull t.lm.leases ∧ t.lm.leases.length = s.lm.leases.length := by
  unfold LeasesStand LeasesBy at h
  generalize t.lm.leases = ls at h ⊢
  induction h with
  | refl => exact ⟨hfull, rfl⟩
  | tail _ hc ih =>
    obtain ⟨hfull', hlen⟩ := ih
    obtain ⟨hfull'', hlen'⟩ := hc.full hfull'
    exact ⟨hfull'', hlen'.trans hlen⟩

/-! ### Changes in sequence -/

theorem LeasesBy.of_leases_eq {R : List Lease → List Lease → Prop} {s t : State} (h : t.lm.leases = s.lm.leases) :
    LeasesBy R s t := by
  rw [LeasesBy, h]

theorem LeasesBy.of_lm_eq {R : List Lease → List Lease → Prop} {s t : State} (h : t.lm = s.lm) : LeasesBy R s t :=
  .of_leases_eq (congrArg LeaseManager.leases h)

theorem LeasesBy.trans {R : List Lease → List Lease → Prop} {s t u : State} (h : LeasesBy R s t)
    (h' : LeasesBy R t u) : LeasesBy R s u :=
  Relation.ReflTransGen.trans h h'

theorem LeasesStand.evolve {s t : State} (h : LeasesStand s t) : LeasesEvolve s t :=
  Relation.ReflTransGen.mono (fun _ _ => LeaseChange.keeping) _ _ h

/-- A table that is emptied has had every record removed. -/
theorem LeasesEvolve.of_nil {s t : State} (h : t.lm.leases = []) : LeasesEvolve s t :=
  .single (by rw [h, ← List.filter_false s.lm.leases]; exact .retire _)

/-! ### Grants, walks and recalls displace nothing -/

/-- A grant under a free handle. -/
theorem State.addLease_stand {s : State} {l : Lease} (hfree : freeHandle s.lm.leases = some l.handle) :
    LeasesStand s (s.addLease l) :=
  .single (.grant hfree)

/-- A walk grants only under a handle that is free at the record's turn (R52). -/
theorem State.freeHandle_of_walkHandle {s : State} {earlier : List Wait} {w : Wait} {hd : Handle}
    (h : s.walkHandle earlier w = some hd) : freeHandle s.lm.leases = some hd := by
  unfold State.walkHandle at h
  split at h
  · exact h
  · cases h

theorem State.walkFrom_stand (kept rest : List Wait) (s : State) : LeasesStand s (State.walkFrom kept rest s) := by
  induction rest generalizing kept s with
  | nil => exact .of_leases_eq rfl
  | cons w rest ih =>
    unfold State.walkFrom
    split
    next hd hw =>
      have hgrant : LeasesStand s (s.grantWait hd w) :=
        s.addLease_stand (l := s.newLease hd w.session w.hold w.term) (State.freeHandle_of_walkHandle hw)
      exact hgrant.trans (ih kept _)
    next => exact ih _ s

theorem State.walk_stand (s : State) : LeasesStand s s.walk := State.walkFrom_stand [] s.lm.waits s

/-- Handing several notices leaves the Lease Manager alone. -/
theorem State.foldl_handNotice_lm {α : Type} (g : α → Addr) (n : α → Notice) (as : List α) (s : State) :
    (as.foldl (fun s a => s.handNotice (g a) (n a)) s).lm = s.lm := by
  obtain ⟨-, -, -, hlm, -⟩ := State.foldl_handNotice_frame g n as s
  exact hlm

/-- A recall changes state fields alone (R70). -/
theorem State.recall_stand (w : Wait) (s : State) : LeasesStand s (s.recall w) := by
  refine .single ?_
  rw [State.recall, State.foldl_handNotice_lm]
  exact .mark _ fun l => by split <;> rfl

/-! ### ACQUIRE displaces nothing -/

theorem State.deferAcquire_stand (h : Addr) (a : AcquireFields) (r : Resource) (s : State) :
    LeasesStand s (s.deferAcquire h a r) := by
  unfold State.deferAcquire
  split
  · refine LeasesBy.trans (.of_leases_eq ?_) (State.recall_stand _ _)
    simp [State.addWait]
  · exact .of_leases_eq (by simp [State.addWait])

theorem State.decideAcquire_stand (h : Addr) (a : AcquireFields) (r : Resource) (s : State) :
    LeasesStand s (s.decideAcquire h a r) := by
  simp only [State.decideAcquire]
  split
  next hd _ hfree =>
    refine (s.addLease_stand (l := s.newLease hd h ⟨r, a.mode⟩ a.term) hfree).trans (.of_leases_eq ?_)
    simp
  next =>
    split_ifs
    · exact .of_leases_eq (by simp)
    · exact .of_leases_eq (by simp)
    · exact .of_leases_eq (by simp)
    · exact .of_leases_eq (by simp)
    · exact s.deferAcquire_stand h a r

/-! ### Retirements and the ends of cycles -/

theorem State.retire_evolve (r : Reason) (l : Lease) (s : State) : LeasesEvolve s (s.retire r l) :=
  .single (by rw [State.retire_leases]; exact .retire _)

theorem State.retireAll_evolve (r : Reason) (ls : List Lease) (s : State) : LeasesEvolve s (s.retireAll r ls) := by
  induction ls generalizing s with
  | nil => exact .of_lm_eq rfl
  | cons l ls ih => exact (s.retire_evolve r l).trans (ih (s.retire r l))

/-- Waits that end leave the Lease Table alone. -/
theorem State.completeWaits_leases (c : Completion) (ws : List Wait) (s : State) :
    (s.completeWaits c ws).lm.leases = s.lm.leases := by
  induction ws generalizing s with
  | nil => rfl
  | cons w ws ih => exact ih (s.completeWait c w)

theorem State.vacateLeases_evolve (slot : SlotNo) (s : State) : LeasesEvolve s (s.vacateLeases slot) :=
  (s.retireAll_evolve _ _).trans (.trans (.of_leases_eq (State.completeWaits_leases _ _ _)) (State.walk_stand _).evolve)

theorem State.closeSession_evolve (h : Addr) (s : State) : LeasesEvolve s (s.closeSession h) :=
  have hwaits (t : State) (ws : List Wait) : LeasesEvolve t { t with lm := { t.lm with waits := ws } } :=
    .of_leases_eq rfl
  (s.retireAll_evolve _ _).trans ((hwaits _ _).trans (State.walk_stand _).evolve)

theorem State.linkClear_evolve (s : State) : LeasesEvolve s s.linkClear := .of_nil rfl

theorem State.endCycle_evolve (o : CycleOutcome) (s : State) : LeasesEvolve s (s.endCycle o) := by
  unfold State.endCycle
  split
  next => exact .of_lm_eq rfl
  next => exact .of_lm_eq (by simp)
  next h _ _ op _ discard _ _ =>
    have hanswer : LeasesEvolve s (if discard then s else s.answer h .done (accessPayload op o)).freeBackplane := by
      split
      · exact .of_lm_eq rfl
      · exact .of_lm_eq (by simp)
    exact hanswer.trans ((State.walk_stand _).evolve.trans (.of_lm_eq (by simp)))

/-! ### Requests -/

section Taking

variable {R : List Lease → List Lease → Prop}

/-- A frame changes the Lease Table as the taking of it does. -/
theorem State.takeFrame_leases {frameKind kind : Byte} {f : Frame} {take : Addr → State → State}
    (htake : ∀ h s, LeasesBy R s (take h s)) (s : State) : LeasesBy R s (s.takeFrame frameKind kind f take) := by
  unfold State.takeFrame
  split_ifs
  · refine .trans ?_ (htake _ _)
    exact .of_lm_eq rfl
  · exact .of_lm_eq rfl
  · exact .of_lm_eq rfl

/-- A request changes the Lease Table only where it is taken as a new one (R96). -/
theorem State.sequenced_leases {x : Session} {kind seq : Byte} {run : State → State}
    (hrun : ∀ s, LeasesBy R s (run s)) (s : State) : LeasesBy R s (s.sequenced x kind seq run) := by
  unfold State.sequenced
  split_ifs
  · exact .of_lm_eq (by simp)
  · refine .trans ?_ (hrun _)
    exact .of_lm_eq rfl
  · exact .of_lm_eq rfl
  · split
    · exact .of_lm_eq (by simp)
    · exact .of_lm_eq rfl
  · exact .of_lm_eq (by simp [State.sequenceFault])

/-- NO_SESSION leaves the Lease Manager alone (R86). -/
theorem State.noSession_lm (seq : Byte) (h : Addr) (s : State) : (s.noSession seq h).lm = s.lm := by
  simp [State.noSession]

/-- A REQUEST other than OPEN changes the Lease Table only as a new request: a host without a session changes
nothing. -/
theorem State.takeRequest_leases {kind : Byte} {f : Frame} {other run : Addr → State → State}
    (hother : ∀ h s, (other h s).lm = s.lm) (hrun : ∀ h s, LeasesBy R s (run h s)) (s : State) :
    LeasesBy R s (s.takeRequest kind f other run) := by
  refine State.takeFrame_leases (fun h s => ?_) s
  split
  · exact .of_lm_eq (hother h s)
  · exact State.sequenced_leases (hrun h) s

/-- Stage 5 changes the Lease Table as the request's own stage does. -/
theorem State.parsed_leases {α : Type} {h : Addr} {fields : Except Denial α} {run : α → State → State}
    {s : State} (hrun : ∀ a, LeasesBy R s (run a s)) : LeasesBy R s (s.parsed h fields run) := by
  unfold State.parsed
  split
  · exact .of_lm_eq (by simp)
  · exact hrun _

end Taking

theorem execAcquire_stand (f : Frame) {s t : State} (h : exec (.acquire f) s = .next t) : LeasesStand s t := by
  cases h
  refine State.takeRequest_leases (State.noSession_lm _) (fun h s => State.parsed_leases fun a => ?_) s
  split
  · exact .of_lm_eq (by simp)
  · exact State.decideAcquire_stand h a _ s

/-! ### The requests that change the Lease Table -/

/-- A RENEW leaves every record its handle (R33). -/
theorem State.renewLease_evolve (handle : Handle) (term : Word16) (s : State) :
    LeasesEvolve s (s.renewLease handle term) :=
  .single (.renew _ fun l => by split <;> rfl)

theorem State.takeRenew_evolve (p : List Byte) (h : Addr) (s : State) : LeasesEvolve s (s.takeRenew p h) := by
  refine State.parsed_leases fun fields => ?_
  obtain ⟨handle, token, term⟩ := fields
  dsimp only
  split
  next => exact .of_lm_eq (by simp)
  next l _ =>
    split
    · exact .of_lm_eq (by simp)
    · split_ifs
      · exact (s.renewLease_evolve l.handle term).trans (.of_lm_eq (by simp))
      · exact .of_lm_eq (by simp)

theorem State.takeRelease_evolve (p : List Byte) (h : Addr) (s : State) : LeasesEvolve s (s.takeRelease p h) := by
  refine State.parsed_leases fun fields => ?_
  obtain ⟨handle, token⟩ := fields
  dsimp only
  split
  next => exact .of_lm_eq (by simp)
  next l _ =>
    have hanswered : LeasesEvolve (s.retire .released l) ((s.retire .released l).answer h .done []) :=
      .of_lm_eq (by simp)
    exact (s.retire_evolve .released l).trans (hanswered.trans (State.walk_stand _).evolve)

theorem State.takeCancel_evolve (p : List Byte) (h : Addr) (s : State) : LeasesEvolve s (s.takeCancel p h) := by
  refine State.parsed_leases fun tag => ?_
  split
  next =>
    refine .trans ?_ (State.walk_stand _).evolve
    exact .of_leases_eq (by simp)
  next => exact .of_lm_eq (by simp)

theorem State.takeClose_evolve (seq : Byte) (p : List Byte) (h : Addr) (s : State) :
    LeasesEvolve s (s.takeClose seq p h) :=
  State.parsed_leases fun _ => (s.closeSession_evolve h).trans (.of_lm_eq (by simp))

theorem State.openSession_lm (h : Addr) (seq : Byte) (replaced : Bool) (s : State) :
    (s.openSession h seq replaced).lm = s.lm := rfl

theorem State.takeOpen_evolve (seq : Byte) (h : Addr) (s : State) : LeasesEvolve s (s.takeOpen seq h) := by
  have hreplaced : LeasesEvolve s ((s.closeSession h).openSession h seq true) :=
    (s.closeSession_evolve h).trans (.of_lm_eq (State.openSession_lm h seq true _))
  unfold State.takeOpen
  split
  next =>
    split_ifs
    · exact .of_lm_eq (State.openSession_lm h seq false s)
    · exact .of_lm_eq (by simp)
  next =>
    split_ifs
    · exact .of_lm_eq rfl
    · split
      · exact .of_lm_eq (by simp)
      · exact .of_lm_eq rfl
    · unfold State.replaceSession
      split_ifs
      · exact hreplaced.trans (State.linkClear_evolve _)
      · exact hreplaced

/-! ### The requests that leave the Lease Manager alone -/

theorem State.parsed_lm {α : Type} {h : Addr} {fields : Except Denial α} {run : α → State → State} {s : State}
    (hrun : ∀ a, (run a s).lm = s.lm) : (s.parsed h fields run).lm = s.lm := by
  unfold State.parsed
  split
  · simp
  · exact hrun _

theorem State.takeFetchFault_lm (p : List Byte) (h : Addr) (s : State) : (s.takeFetchFault p h).lm = s.lm := by
  refine State.parsed_lm fun _ => ?_
  split <;> simp

theorem State.takeQuery_lm (p : List Byte) (h : Addr) (s : State) : (s.takeQuery p h).lm = s.lm := by
  refine State.parsed_lm fun fields => ?_
  obtain ⟨slot, channel⟩ := fields
  dsimp only
  split <;> simp

theorem State.takeAccess_lm (p : List Byte) (h : Addr) (s : State) : (s.takeAccess p h).lm = s.lm := by
  refine State.parsed_lm fun _ => ?_
  split <;> simp [State.joinQueue]

theorem State.fireIfRaised_lm (h : Addr) (slot : SlotNo) (s : State) : (s.fireIfRaised h slot).lm = s.lm := by
  unfold State.fireIfRaised
  split <;> simp

theorem State.takeBook_lm (p : List Byte) (h : Addr) (s : State) : (s.takeBook p h).lm = s.lm :=
  State.parsed_lm fun _ => State.parsed_lm fun _ => by simp [State.fireIfRaised_lm]

theorem State.takeUnbook_lm (p : List Byte) (h : Addr) (s : State) : (s.takeUnbook p h).lm = s.lm :=
  State.parsed_lm fun _ => State.parsed_lm fun _ => by simp [State.dropBooking]

theorem State.takeRearm_lm (p : List Byte) (h : Addr) (s : State) : (s.takeRearm p h).lm = s.lm := by
  refine State.parsed_lm fun _ => State.parsed_lm fun _ => ?_
  split
  next => simp
  next => split <;> simp [State.fireIfRaised_lm]

theorem State.probeNoSession_lm (seq : Byte) (h : Addr) (s : State) : (s.probeNoSession seq h).lm = s.lm := by
  simp [State.probeNoSession]

theorem State.takeProbe_lm (h : Addr) (s : State) : (s.takeProbe h).lm = s.lm := by
  simp [State.takeProbe]

theorem State.takeConfigure_lm (p : List Byte) (h : Addr) (s : State) : (s.takeConfigure p h).lm = s.lm := by
  refine State.parsed_lm fun _ => ?_
  split
  · split <;> simp
  · simp

theorem State.takeResetController_lm (p : List Byte) (h : Addr) (s : State) :
    (s.takeResetController p h).lm = s.lm := by
  refine State.parsed_lm fun _ => ?_
  split <;> simp

theorem State.takeUnknown_lm (h : Addr) (s : State) : (s.takeUnknown h).lm = s.lm := by
  simp [State.takeUnknown]

/-! ### The events -/

theorem State.takeAck_lm (seq : Byte) (h : Addr) (s : State) : (s.takeAck seq h).lm = s.lm := by
  rcases s.takeAck_cases seq h with ⟨_, e⟩ | ⟨_, e⟩ <;> rw [e]
  rfl

theorem State.chooseFrame_lm (s : State) : s.chooseFrame.lm = s.lm := by
  unfold State.chooseFrame
  split
  · rfl
  · split
    · split <;> rfl
    · rfl

theorem State.responseEnded_evolve (r : Response) (s : State) : LeasesEvolve s (s.responseEnded r) := by
  have hclear (u : State) (hu : u.lm = s.lm) :
      LeasesEvolve s (if r.clears && u.panel.clearCommitted then u.linkClear else u) := by
    split
    · exact .of_nil rfl
    · exact .of_lm_eq hu
  exact hclear _ (by split <;> rfl)

theorem State.transmissionEnd_evolve (s : State) : LeasesEvolve s s.transmissionEnd := by
  unfold State.transmissionEnd
  split
  next r _ _ =>
    have hidle : LeasesEvolve s s.endTx := .of_lm_eq rfl
    exact hidle.trans (State.responseEnded_evolve r _)
  next => exact .of_lm_eq rfl
  next => exact .of_lm_eq rfl

theorem State.responseLost_evolve (r : Response) (s : State) : LeasesEvolve s (s.responseLost r) := by
  unfold State.responseLost
  split
  next =>
    split
    · exact .of_nil rfl
    · exact .of_lm_eq rfl
  next => split <;> exact .of_lm_eq rfl
  next => split <;> exact .of_lm_eq rfl

theorem State.contentionLoss_evolve (s : State) : LeasesEvolve s s.contentionLoss := by
  unfold State.contentionLoss
  split
  next r _ _ =>
    have hidle : LeasesEvolve s s.endTx := .of_lm_eq rfl
    exact hidle.trans (State.responseLost_evolve r _)
  next => exact .of_lm_eq (by simp)
  next => exact .of_lm_eq rfl

theorem State.tackExpiry_lm (s : State) : s.tackExpiry.lm = s.lm := by
  unfold State.tackExpiry
  split <;> rfl

theorem State.assertReset_evolve (sw : Switches) (s : State) : LeasesEvolve s (s.assertReset sw) := by
  unfold State.assertReset
  split
  · exact .of_lm_eq rfl
  · exact .of_nil rfl

/-- Reaching an instant leaves the Lease Table to what follows. -/
theorem State.reach_evolve {t : Instant} {s u : State} (h : LeasesEvolve (s.reach t) u) : LeasesEvolve s u :=
  .trans (.of_lm_eq rfl) h

theorem State.expireLease_evolve (handle : Handle) (s : State) : LeasesEvolve s (s.expireLease handle) := by
  unfold State.expireLease
  split
  next l _ => exact State.reach_evolve ((State.retire_evolve .expired l _).trans (State.walk_stand _).evolve)
  next => exact .of_lm_eq rfl

theorem State.revokeGroup_evolve (group : Arrival) (s : State) : LeasesEvolve s (s.revokeGroup group) := by
  unfold State.revokeGroup
  split
  next => exact State.reach_evolve ((State.retireAll_evolve .revoked _ _).trans (State.walk_stand _).evolve)
  next => exact .of_lm_eq rfl

theorem State.timeOutWait_evolve (arrival : Arrival) (s : State) : LeasesEvolve s (s.timeOutWait arrival) := by
  unfold State.timeOutWait
  split
  next w _ =>
    have hended : LeasesEvolve s ((s.reach w.deadline).completeWait .timedOut w) := .of_leases_eq rfl
    exact hended.trans (State.walk_stand _).evolve
  next => exact .of_lm_eq rfl

theorem State.presenceRise_lm (slot : SlotNo) (s : State) : (s.presenceRise slot).lm = s.lm := by
  unfold State.presenceRise
  split <;> rfl

theorem State.silenceSlot_evolve (slot : SlotNo) (s : State) : LeasesEvolve s (s.silenceSlot slot) := by
  unfold State.silenceSlot
  split
  · exact s.endCycle_evolve .silent
  · exact .of_lm_eq rfl

theorem State.presenceDrop_evolve (slot : SlotNo) (s : State) : LeasesEvolve s (s.presenceDrop slot) := by
  have hempty : LeasesEvolve s (s.emptySlot slot) := .of_lm_eq rfl
  have hwithdrawn : LeasesEvolve s ((s.emptySlot slot).withdraw slot) := .of_lm_eq rfl
  unfold State.presenceDrop
  split
  · exact .of_lm_eq rfl
  · split
    · exact hempty.trans ((State.vacateLeases_evolve slot _).trans (State.silenceSlot_evolve slot _))
    · exact hwithdrawn.trans (State.silenceSlot_evolve slot _)
    · exact hempty
    · exact hempty
    · exact hempty

theorem State.settled_lm (slot : SlotNo) (s : State) : (s.settled slot).lm = s.lm := by
  unfold State.settled
  split <;> simp [State.joinIdentification]

theorem State.attentionRise_lm (slot : SlotNo) (s : State) : (s.attentionRise slot).lm = s.lm := by
  unfold State.attentionRise
  split <;> simp

theorem State.idle_lm (s : State) : s.idle.lm = s.lm := by
  unfold State.idle
  split <;> rfl

/-! ### Every command -/

/-- What every command can do to the Lease Table. -/
theorem exec_evolve {i : Instr} {s t : State} (h : exec i s = .next t) : LeasesEvolve s t := by
  have hnew {kind : Byte} {f : Frame} {run : Addr → State → State} (hrun : ∀ h s, LeasesEvolve s (run h s)) :
      LeasesEvolve s (s.takeRequest kind f (State.noSession f.seq) run) :=
    State.takeRequest_leases (State.noSession_lm _) hrun s
  have hsame {kind : Byte} {f : Frame} {other run : Addr → State → State} (hother : ∀ h s, (other h s).lm = s.lm)
      (hrun : ∀ h s, (run h s).lm = s.lm) : LeasesEvolve s (s.takeRequest kind f other run) :=
    State.takeRequest_leases hother (fun h s => .of_lm_eq (hrun h s)) s
  have hno (seq : Byte) := State.noSession_lm seq
  cases i with
  | powerOn => cases h; exact .of_nil rfl
  | openSession sw =>
    cases h
    have hread : LeasesEvolve s (s.readSwitches sw) := .of_lm_eq rfl
    exact hread.trans (State.takeFrame_leases (State.takeOpen_evolve _) _)
  | closeSession => cases h; exact hnew (State.takeClose_evolve _ _)
  | fetchFault => cases h; exact hsame (hno _) (State.takeFetchFault_lm _)
  | acquire f => exact (execAcquire_stand f h).evolve
  | renew => cases h; exact hnew (State.takeRenew_evolve _)
  | release => cases h; exact hnew (State.takeRelease_evolve _)
  | cancel => cases h; exact hnew (State.takeCancel_evolve _)
  | query => cases h; exact hsame (hno _) (State.takeQuery_lm _)
  | access => cases h; exact hsame (hno _) (State.takeAccess_lm _)
  | book => cases h; exact hsame (hno _) (State.takeBook_lm _)
  | unbook => cases h; exact hsame (hno _) (State.takeUnbook_lm _)
  | rearm => cases h; exact hsame (hno _) (State.takeRearm_lm _)
  | probe => cases h; exact hsame (State.probeNoSession_lm _) State.takeProbe_lm
  | configure => cases h; exact hsame (hno _) (State.takeConfigure_lm _)
  | resetController => cases h; exact hsame (hno _) (State.takeResetController_lm _)
  | unknownRequestKind =>
    cases h
    split
    · exact .of_lm_eq rfl
    · exact hsame (hno _) State.takeUnknown_lm
  | ack => cases h; exact State.takeFrame_leases (fun h s => .of_lm_eq (State.takeAck_lm _ h s)) s
  | frameDiscard => cases h; split <;> exact .of_lm_eq rfl
  | transmitStart => cases h; split; exacts [.of_lm_eq s.chooseFrame_lm, .of_lm_eq rfl]
  | transmissionEnd sw =>
    cases h
    have hread : LeasesEvolve s (s.readSwitches sw) := .of_lm_eq rfl
    exact hread.trans (State.transmissionEnd_evolve _)
  | contentionLoss => cases h; exact s.contentionLoss_evolve
  | linkResetAssert sw => cases h; exact s.assertReset_evolve sw
  | tackExpiry => cases h; exact .of_lm_eq s.tackExpiry_lm
  | leaseExpiry hd => cases h; exact s.expireLease_evolve hd
  | graceDeadline g => cases h; exact s.revokeGroup_evolve g
  | waitDeadline n => cases h; exact s.timeOutWait_evolve n
  | switchToOnline =>
    cases h
    split
    · exact .of_lm_eq rfl
    · exact .trans (.of_lm_eq rfl) (State.walk_stand (s.setService .online)).evolve
  | presenceRise slot => cases h; exact .of_lm_eq (s.presenceRise_lm slot)
  | presenceDrop slot => cases h; exact s.presenceDrop_evolve slot
  | settlingDeadline slot => cases h; exact .of_lm_eq (s.settled_lm slot)
  | attentionRise slot => cases h; exact .of_lm_eq (s.attentionRise_lm slot)
  | identificationStart => cases h; exact .of_lm_eq (by simp)
  | accessStartCheck => cases h; exact .of_lm_eq (by simp)
  | moduleAnswer => cases h; split; exacts [s.endCycle_evolve _, .of_lm_eq rfl]
  | silenceExpiry =>
    cases h
    unfold State.fallSilent
    split
    · exact State.reach_evolve (State.endCycle_evolve _ _)
    · exact .of_lm_eq rfl
  | startDelimiter => cases h; split <;> exact .of_lm_eq rfl
  | frameTruncated | linkResetRelease | switchToService | attentionFall => cases h; exact .of_lm_eq rfl

/-- What every step can do to the Lease Table. -/
theorem step_evolve {s t : State} (h : step s = .next t) : LeasesEvolve s t := by
  unfold step at h
  split at h
  next => cases h; exact .of_lm_eq s.idle_lm
  next c rest _ =>
    have hexec : LeasesEvolve { s with pending := rest } t := exec_evolve h
    exact hexec

/-- Settles O46: every step evolves the table by changes that keep handles distinct, and 64 handles bound it; a walk and
an ACQUIRE evolve it by changes that displace no record, and a full table has no free handle for a grant. -/
theorem leaseTableHolds64 : Obligations.LeaseTableHolds64 := by
  refine ⟨fun s t hs h => ?_, fun s t f h => ?_⟩
  · have ht : HandlesDistinct t := (step_evolve h).handlesDistinct hs
    exact ⟨ht, ht.length_le⟩
  · have hstand : LeasesStand s t := by
      rcases h with h | rfl
      · exact execAcquire_stand f h
      · exact s.walk_stand
    exact ⟨hstand.sansState_prefix, fun hfull => (hstand.full hfull).2⟩

end Sys2Proof.Machine
end

section
/-! PROOFS. ACQUIRE at arrival (R44 to R46): what passes the checks is decided, and with wait limit 0 it is refused when
no grant is made. -/

namespace Sys2Proof.Machine

/-! ### Terms, grantability and a full table -/

/-- The executable test of a term is R29's bound. -/
theorem State.termOk_iff {s : State} {term : Word16} : s.termOk term = true ↔ TermOk s term := by
  simp only [State.termOk, TermOk, Bool.and_eq_true, decide_eq_true_eq]

/-- What stands in the way of a candidate: a lease, the guard or an earlier wait record that conflicts with it (R50,
R51). -/
theorem State.grantable_eq_false_iff {s : State} {earlier : List Wait} {c : Hold} :
    s.grantable earlier c = false ↔
      (∃ l ∈ s.lm.leases, c.compatible l.hold = false) ∨
      (∃ g, s.bp.guardHold = some g ∧ c.compatible g = false) ∨
      (∃ w ∈ earlier, c.compatible w.hold = false) := by
  cases hguard : s.bp.guardHold with
  | none => simp [State.grantable, hguard, Bool.and_eq_false_iff, -Bool.and_eq_false_imp]
  | some g => simp [State.grantable, hguard, Bool.and_eq_false_iff, -Bool.and_eq_false_imp, or_assoc]

/-- A full table of distinct handles holds one record for each of the 64 (R19, R21). -/
theorem TableFull.length_eq {s : State} (hfull : TableFull s.lm.leases) (hd : HandlesDistinct s) :
    s.lm.leases.length = 64 := by
  have hall : ∀ h : Handle, h ∈ s.lm.leases.map Lease.handle := fun h => List.mem_map.2 (hfull h)
  simpa using Fintype.card_congr (List.Nodup.getEquivOfForallMemList _ hd hall)

/-! ### ACQUIRE at arrival -/

/-- A request that passes steps 1 to 5 of R44 passes the executable checks, in the state in which it is carried out. -/
theorem AcquirePasses.acquireChecks_eq {s : State} {f : Frame} {x : Session} {a : AcquireFields} {r : Resource}
    (hp : AcquirePasses s x a r) (hn : NewRequest s Kind.acquire f x) :
    (s.taking Kind.acquire f).acquireChecks (frameHost f) a = .ok r := by
  obtain ⟨honline, hresource, hterm, hpermitted, hmayWait⟩ := hp
  have hterm' : (s.taking Kind.acquire f).termOk a.term = true := State.termOk_iff.2 hterm
  have hclass : ¬ (a.urgent = true ∧ (s.taking Kind.acquire f).isManager (frameHost f) = false) := by
    rintro ⟨hu, hm⟩
    simp [s.taking_isManager hn, hpermitted hu] at hm
  have hlimit : ¬ (a.urgent = true ∧ a.waitLimit = 0) := fun ⟨hu, hw⟩ => hmayWait hu hw
  simp only [State.acquireChecks, State.taking_frame, honline, reduceCtorEq, hresource, hterm', hclass, hlimit,
    if_false]

/-- An ACQUIRE that passes steps 1 to 5 is decided by step 6 (R44). -/
theorem execAcquire_of_passes {s : State} {f : Frame} {x : Session} {a : AcquireFields} {r : Resource}
    (hn : NewRequest s Kind.acquire f x) (hf : f.payload = acquirePayload a) (hp : AcquirePasses s x a r) :
    exec (.acquire f) s = .next ((s.taking Kind.acquire f).decideAcquire (frameHost f) a r) := by
  have hexec : exec (.acquire f) s = execAcquire f s := rfl
  simp only [hexec, execAcquire, s.takeRequest_new hn, State.takeAcquire, hf, parseAcquire_payload, State.parsed,
    hp.acquireChecks_eq hn]

/-- With wait limit 0 a request that is not grantable is refused CONFLICT (R46). -/
theorem State.decideAcquire_conflict {s : State} {h : Addr} {a : AcquireFields} {r : Resource}
    (hlimit : a.waitLimit = 0) (hg : s.grantable s.lm.waits (a.hold r) = false) :
    s.decideAcquire h a r = s.answer h .conflict [] := by
  unfold AcquireFields.hold at hg
  simp [State.decideAcquire, hg, hlimit]

/-- With wait limit 0 a grantable request for which no Lease Table record is free is refused FULL (R46). -/
theorem State.decideAcquire_full {s : State} {h : Addr} {a : AcquireFields} {r : Resource}
    (hlimit : a.waitLimit = 0) (hg : s.grantable s.lm.waits (a.hold r) = true) (hfull : TableFull s.lm.leases) :
    s.decideAcquire h a r = s.answer h .full [] := by
  unfold AcquireFields.hold at hg
  simp [State.decideAcquire, hg, hlimit, hfull.freeHandle_eq_none]

/-- Settles O15: step 6 decides the request in the state in which it is carried out, whose tables are those of the
state before, and its only effect there is the answer. -/
theorem acquireRefused : Obligations.AcquireRefused := by
  intro s f x a r hn hf hp hlimit
  have hexec := execAcquire_of_passes hn hf hp
  refine ⟨fun hg => ?_, fun hg hfull => ?_, State.grantable_eq_false_iff, TableFull.length_eq⟩
  · rw [hexec, State.decideAcquire_conflict (s := s.taking _ f) hlimit hg, s.taking_answer hn]
  · rw [hexec, State.decideAcquire_full (s := s.taking _ f) hlimit hg hfull, s.taking_answer hn]

end Sys2Proof.Machine
end

section
/-! PROOFS. What an event is made of: the parts that the blocks of the part carry out, each with its guard, and the ends
of an event. Every command is an event (`exec_event`), so a law is kept by every step when every part and every end keeps
it (`Event.keeps`). -/

namespace Sys2Proof.Machine

/-! ### Named updates -/

/-- The state with other commands waiting and another clock. -/
def State.outside (cs : List Instr) (now : Instant) (s : State) : State := { s with pending := cs, now := now }

/-- The state with another Wait Pool. -/
def State.setWaits (ws : List Wait) (s : State) : State := { s with lm := { s.lm with waits := ws } }

/-- The state with another Access Queue. -/
def State.setQueue (q : List AccessEntry) (s : State) : State := { s with bp := { s.bp with queue := q } }

/-- The leases that pass the test stay, the others are retired. -/
def State.keepLeases (keep : Lease → Bool) (s : State) : State :=
  { s with lm := { s.lm with leases := s.lm.leases.filter keep } }

/-- The HELD leases in conflict with an urgent wait record are RECALLED, without the notices (R70 steps 1 and 2). -/
def State.markConflicts (w : Wait) (s : State) : State :=
  { s with lm := { s.lm with leases := s.lm.leases.map (fun l =>
      if l.state = .held ∧ w.hold.compatible l.hold = false then
        l.recall (s.now + s.panel.config.tGrace.toNat * Config.second) w.arrival
      else l) } }

/-- What the blocks other than the Lease Manager do when a session is closed (R92 steps 2 to 7). -/
def State.shed (h : Addr) (s : State) : State :=
  { s with
    bp := s.bp.close h,
    bookings := s.bookings.filter (fun b => decide (b.session ≠ h)),
    delivery := s.delivery.close h,
    link := s.link.close h,
    sessions := s.sessions.filter (fun x => decide (x.host ≠ h)) }

/-- Everything that a close removes, before the walk (R92). -/
def State.purge (h : Addr) (s : State) : State :=
  let u := s.retireAll .closed (s.lm.leases.filter (fun l => decide (l.holder = h)))
  (u.setWaits (u.lm.waits.filter (fun w => decide (w.session ≠ h)))).shed h

/-- A change of a session's record that no law looks at: host, class, in-flight state, tags, queued entries and the mark
of a lost transmission stay. -/
structure Quiet (f : Session → Session) : Prop where
  host : ∀ x, (f x).host = x.host
  cls : ∀ x, (f x).cls = x.cls
  inFlight : ∀ x, (f x).inFlight = x.inFlight
  tags : ∀ x, (f x).tags = x.tags
  entries : ∀ x, (f x).out.entries = x.out.entries
  contended : ∀ x, (f x).out.contended = x.out.contended

/-- The link can take a frame and the part has an address (R168, R171, R173). -/
def State.hears (s : State) : Prop := s.receives = true ∧ s.panel.nodeAddress ≠ 0

/-- How far an event has come: the host whose new request has been accepted and stands unanswered; whether a grant, an
arrival number or a claim on the backplane may have been made; and whether a session has been closed, whose record is
free. -/
structure Progress where
  taken : Option Addr
  granted : Bool
  numbered : Bool
  due : Bool
  room : Bool

/-- The start of an event. -/
def Progress.start : Progress := { taken := none, granted := false, numbered := false, due := false, room := false }

/-- One part of an event: what one block does, with what it has found out before it does it. -/
inductive Part : Progress → State → Progress → State → Prop
  /-- Less is taken for granted from here on. -/
  | note {p s} (granted numbered due : Bool) :
      Part p s { p with granted := p.granted || granted, numbered := p.numbered || numbered, due := p.due || due } s
  | outside {p s} (cs : List Instr) (now : Instant) : Part p s p (s.outside cs now)
  | readSwitches {p s} (sw : Switches) : Part p s p (s.readSwitches sw)
  | delimiter {p s} (hr : s.receives = true) : Part p s p { s with link := { s.link with receive := .receiving } }
  | endReception {p s} : Part p s p s.endReception
  | lineHigh {p s} : Part p s p { s with link := { s.link with resetLine := .released } }
  | quiet {p s} (h : Addr) {f : Session → Session} (hf : Quiet f) : Part p s p (s.mapSession h f)
  | accept {p s x} (h : Addr) (seq kind : Byte) (hp : p.taken = none) (hx : s.session? h = some x)
      (hfree : x.inFlight = false) :
      Part p s { p with taken := some h } (s.mapSession h (fun y => y.accept seq kind))
  | answer {p s} {h : Addr} (st : Status) (payload : List Byte) (c : Bool) (hp : p.taken = some h) :
      Part p s { p with taken := none } (s.answerWith h st payload c)
  | respond {p s} {r : Response} (hr : r.endsFlight = false) (hs : s.hears) : Part p s p (s.pushResponse r)
  | openSession {p s} (h : Addr) (seq : Byte) (replaced : Bool) (hp : p.taken = none) (hs : s.hears) (h0 : h ≠ 0)
      (hnew : s.session? h = none) (hroom : p.room = true ∨ s.sessions.length < Config.maxSessions) :
      Part p s { p with room := false } (s.openSession h seq replaced)
  | purge {p s} (h : Addr) (hg : p.granted = false) (hp : p.taken = none ∨ p.taken = some h)
      (hx : (s.session? h).isSome = true) : Part p s { p with taken := none, room := true } (s.purge h)
  | retire {p s} (keep : Lease → Bool) (hg : p.granted = false) : Part p s p (s.keepLeases keep)
  | renew {p s} (handle : Handle) (term : Word16) (ht : TermOk s term) : Part p s p (s.renewLease handle term)
  | grant {p s} {hd : Handle} (h : Addr) (c : Hold) (term : Word16) (hg : p.granted = true)
      (hfree : freeHandle s.lm.leases = some hd) (hc : s.grantable s.lm.waits c = true) (ht : TermOk s term)
      (hv : c.resource.valid s.slots = true) (hx : (s.session? h).isSome = true) :
      Part p s p (s.addLease (s.newLease hd h c term))
  | grantWait {p s} {hd : Handle} {kept rest : List Wait} {w : Wait} (hg : p.granted = true)
      (hw : s.lm.waits = kept ++ w :: rest) (hh : s.walkHandle kept w = some hd) :
      Part p s p ((s.grantWait hd w).setWaits (kept ++ rest))
  | defer {p s x} (h : Addr) (a : AcquireFields) (r : Resource) (hn : p.numbered = false) (hx : s.session? h = some x)
      (ht : TermOk s a.term) (hv : r.valid s.slots = true) (hfresh : a.tag ∉ x.tags)
      (hroom : x.tags.length < Config.maxTags) :
      Part p s { p with numbered := true }
        ((if a.urgent then (s.addWait (s.newWait h a r)).markConflicts (s.newWait h a r)
          else s.addWait (s.newWait h a r)).mapSession h (fun x => { x with tags := x.tags ++ [a.tag] }))
  | cancel {p s} (h : Addr) (tag : Tag) (hw : ∃ w ∈ s.lm.waits, w.session = h ∧ w.tag = tag) :
      Part p s p ((s.dropWait h tag).mapSession h (fun x => { x with tags := x.tags.filter (fun t => decide (t ≠ tag)) }))
  | completeWaits {p s} (o : Completion) (ws : List Wait) (hs : ws.Sublist s.lm.waits) : Part p s p (s.completeWaits o ws)
  | handNotice {p s} (h : Addr) (n : Notice) : Part p s p (s.handNotice h n)
  | unbook {p s} (h : Addr) (slot : SlotNo) : Part p s p (s.mapQueue h (fun q => q.unbook (s.flying h) slot))
  | putBooking {p s} (h : Addr) (slot : SlotNo) (mode : BookingMode) (hx : (s.session? h).isSome = true) :
      Part p s p (s.putBooking h slot mode)
  | rebook {p s} (bs : List Booking) (hb : (bs.map (fun b => (b.session, b.slot))).Sublist
      (s.bookings.map (fun b => (b.session, b.slot)))) : Part p s p { s with bookings := bs }
  | setConfig {p s} (c : ConfigRecord) (hl : s.lm.leases = []) (hw : s.lm.waits = []) (hc : c.firstBad = none) :
      Part p s p (s.setConfig c)
  | setService {p s} (pos : Service) : Part p s p (s.setService pos)
  | commitClear {p s} : Part p s p s.commitClear
  | presenceRise {p s} (slot : SlotNo) : Part p s p (s.presenceRise slot)
  | attention {p s} (slot : SlotNo) (level : Bool) : Part p s p (s.setSlot slot (fun r => { r with attention := level }))
  | settle {p s} {slot : SlotNo} {d : Instant} (hs : (s.slots[slot]).state = .settling d) (hp : p.due = true) :
      Part p s p { s.setSlot slot (fun r => { r with state := .identifying }) with
        bp := { s.bp with pendingIds := insertSlot slot s.bp.pendingIds } }
  | emptySlot {p s} (slot : SlotNo) (hs : (s.slots[slot]).state ≠ .identifying)
      (hl : (s.slots[slot]).state.isReady = true →
        (∀ l ∈ s.lm.leases, l.resource.slot ≠ slot) ∧ ∀ w ∈ s.lm.waits, w.resource.slot ≠ slot) :
      Part p s p (s.emptySlot slot)
  | withdraw {p s} (slot : SlotNo) (hs : (s.slots[slot]).state = .identifying)
      (hc : ∀ c, s.bp.cycle = some c → c.kind ≠ .identify slot) :
      Part p s p ((s.emptySlot slot).withdraw slot)
  | abandon {p s c} (slot : SlotNo) (hs : (s.slots[slot]).state = .identifying) (hc : s.bp.cycle = some c)
      (hk : c.kind = .identify slot) (hp : p.due = true) :
      Part p s p (((s.emptySlot slot).withdraw slot).freeBackplane)
  | identified {p s c} (slot : SlotNo) (o : CycleOutcome) (hc : s.bp.cycle = some c) (hk : c.kind = .identify slot)
      (hs : (s.slots[slot]).state = .identifying) (hp : p.due = true) :
      Part p s p (s.freeBackplane.setSlot slot (fun r => { r with state := outcomeState o }))
  | unidentified {p s c} (slot : SlotNo) (hc : s.bp.cycle = some c) (hk : c.kind = .identify slot)
      (hs : (s.slots[slot]).state ≠ .identifying) (hp : p.due = true) : Part p s p s.freeBackplane
  | endAccess {p s c} {h : Addr} {slot : SlotNo} {ch : ChannelNo} {op : Operation} {reg : Byte} {discard : Bool}
      (payload : List Byte) (hc : s.bp.cycle = some c) (hk : c.kind = .access h slot ch op reg discard)
      (hp : p.taken = none) (hd : p.due = true) :
      Part p s p (if discard then s else s.answer h .done payload).freeBackplane
  | joinQueue {p s e} {a : AccessFields} (hp : p.taken = some e.session) (hd : p.due = true)
      (hx : (s.session? e.session).isSome = true) (he : s.accessChecks e.session a = .ok e) :
      Part p s { p with taken := none } (s.setQueue (s.bp.queue ++ [e]))
  | refuseHead {p s e rest st} (hp : p.taken = none) (hc : s.bp.cycle = none) (hq : s.bp.queue = e :: rest)
      (hd : p.due = true) (hst : s.startCheck e = .error st) :
      Part p s p ((s.setQueue rest).answer e.session st [])
  | acknowledge {p s} (h : Addr) (seq : Byte) (hf : s.flying h = some seq) (ht : s.link.tx = none) :
      Part p s p (s.acknowledge h seq)
  | startResponse {p s r rest} (hs : s.maySend = true) (hr : s.link.responses = r :: rest) :
      Part p s p (s.startResponse r rest)
  | startEntry {p s x e rest} (hs : s.maySend = true) (ha : s.delivery.attempt = none)
      (hx : s.session? x.host = some x) (he : x.out.started.entries = e :: rest) : Part p s p (s.startEntry x.host e)
  | responseEnded {p s t r} (ht : s.link.tx = some t) (hr : t.item = .response r) (he : r.endsFlight = true)
      (hp : p.taken = none) :
      Part p s p (s.endTx.mapSession r.host (fun x => { x with inFlight := false }))
  | responseDropped {p s t r} (ht : s.link.tx = some t) (hr : t.item = .response r) (he : r.endsFlight = false) :
      Part p s p s.endTx
  | responseReturned {p s t r} (ht : s.link.tx = some t) (hr : t.item = .response r)
      (hu : r.taken = false → ∀ q ∈ s.link.responses, q.taken = false → q.host ≠ r.host) :
      Part p s p { s.endTx with link := { s.endTx.link with responses := r :: s.link.responses } }
  | entryEnded {p s t h n o} (ht : s.link.tx = some t) (hi : t.item = .entry h n o) : Part p s p (s.endTx.entryEnded h o)
  | entryLost {p s t h n o} (ht : s.link.tx = some t) (hi : t.item = .entry h n o) : Part p s p (s.endTx.entryLost o)
  | tackExpiry {p s} : Part p s p s.tackExpiry

/-- The end of an event: no choice of the arbiter is due, or it is made; or every record is cleared. -/
inductive Ending : Progress → State → State → Prop
  | done {p s} (hp : p.taken = none) (hd : p.due = false) : Ending p s s
  | noChoice {p s} (hp : p.taken = none) (hc : s.bp.cycle ≠ none ∨ (s.bp.queue = [] ∧ s.bp.pendingIds = [])) : Ending p s s
  | identify {p s} {slot : SlotNo} {rest : List SlotNo} (hp : p.taken = none) (hc : s.bp.cycle = none)
      (hi : s.bp.pendingIds = slot :: rest) : Ending p s (s.startIdentification slot rest)
  | access {p s e rest l} (hp : p.taken = none) (hc : s.bp.cycle = none) (hi : s.bp.pendingIds = [])
      (hq : s.bp.queue = e :: rest) (hl : s.startCheck e = .ok l) : Ending p s ((s.setQueue rest).startAccess e l)
  | linkClear {p s} (hd : p.due = false) : Ending p s s.linkClear
  | lineLow {p s} (sw : Switches) (hd : p.due = false) : Ending p s { (s.readSwitches sw).linkClear with
      link := { receive := .idle, resetLine := .asserted, tx := none, responses := [] } }
  | powerOn {p s} (pins : Pins) : Ending p s (s.powerOn pins)

/-- An event: parts, one after the other, and an end. -/
inductive Event : Progress → State → State → Prop
  | ending {p s t} (h : Ending p s t) : Event p s t
  | part {p q s u t} (h : Part p s q u) (e : Event q u t) : Event p s t

/-- What every part keeps and every end turns into a law holds after the event. -/
theorem Event.keeps {I : Progress → State → Prop} {J : State → Prop}
    (hpart : ∀ {p q s t}, Part p s q t → I p s → I q t) (hend : ∀ {p s t}, Ending p s t → I p s → J t)
    {p : Progress} {s t : State} (h : Event p s t) (hi : I p s) : J t := by
  induction h with
  | ending h => exact hend h hi
  | part h _ ih => exact ih (hpart h hi)

end Sys2Proof.Machine
end

section
/-! PROOFS. Every command is an event: each function of the model cut into the parts of an event. A lemma `f_event` says
that an event that goes on after `f` is an event that begins before it. -/

namespace Sys2Proof.Machine

variable {p : Progress} {s t : State}

/-! ### Time, and less taken for granted -/

/-- The progress from which everything but a choice of the arbiter, an unanswered request and a free session record has
been given up. -/
def Progress.noted (p : Progress) (due : Bool) : Progress :=
  { p with granted := true, numbered := true, due := due }

theorem Event.note (granted numbered due : Bool)
    (e : Event { p with granted := p.granted || granted, numbered := p.numbered || numbered, due := p.due || due } s t) :
    Event p s t :=
  .part (.note granted numbered due) e

/-- An event that goes on with a grant possibly made. -/
theorem Event.grants (e : Event { p with granted := true } s t) : Event p s t :=
  .note true false false (by simpa using e)

/-- An event that goes on with a choice of the arbiter due. -/
theorem Event.claims (e : Event { p with due := true } s t) : Event p s t :=
  .note false false true (by simpa using e)

theorem State.reach_event {n : Instant} (e : Event p (s.reach n) t) : Event p s t :=
  .part (.outside s.pending (max s.now n)) e

/-- Nothing happens. -/
theorem Event.nothing : Event .start s s := .ending (.done rfl rfl)

/-! ### Grants, retirements and the ends of waits -/

theorem State.foldl_handNotice_event {α : Type} (g : α → Addr) (n : α → Notice) (as : List α)
    (e : Event p (as.foldl (fun s a => s.handNotice (g a) (n a)) s) t) : Event p s t := by
  induction as generalizing s with
  | nil => exact e
  | cons a as ih => exact .part (.handNotice (g a) (n a)) (ih e)

theorem State.retire_event {r : Reason} {l : Lease} (hg : p.granted = false) (e : Event p (s.retire r l) t) :
    Event p s t := by
  refine .part (.retire (fun k => decide (k.handle ≠ l.handle)) hg) ?_
  unfold State.retire at e
  split at e
  · exact .part (.handNotice _ _) e
  · exact e

theorem State.retireAll_event {r : Reason} {ls : List Lease} (hg : p.granted = false)
    (e : Event p (s.retireAll r ls) t) : Event p s t := by
  induction ls generalizing s with
  | nil => exact e
  | cons l ls ih => exact State.retire_event hg (ih e)

/-- A pass does not look at the pool's record while it runs. -/
theorem State.walkFrom_setWaits (ws kept rest : List Wait) (s : State) :
    State.walkFrom kept rest (s.setWaits ws) = State.walkFrom kept rest s := by
  induction rest generalizing kept s with
  | nil => rfl
  | cons w rest ih =>
    have hsame : (s.setWaits ws).walkHandle kept w = s.walkHandle kept w := rfl
    simp only [State.walkFrom, hsame]
    cases s.walkHandle kept w with
    | none => exact ih _ s
    | some hd => exact ih kept (s.grantWait hd w)

/-- The grant of a record takes it from the pool; the pass goes on from the state left. -/
theorem State.walkFrom_grant {kept rest : List Wait} {w : Wait} {hd : Handle} (hw : s.walkHandle kept w = some hd) :
    State.walkFrom kept (w :: rest) s = State.walkFrom kept rest ((s.grantWait hd w).setWaits (kept ++ rest)) := by
  rw [State.walkFrom_setWaits]
  simp only [State.walkFrom, hw]

/-- A record that is not granted is passed over. -/
theorem State.walkFrom_keep {kept rest : List Wait} {w : Wait} (hw : s.walkHandle kept w = none) :
    State.walkFrom kept (w :: rest) s = State.walkFrom (kept ++ [w]) rest s := by
  simp only [State.walkFrom, hw]

theorem State.walkFrom_event {kept rest : List Wait} (hg : p.granted = true) (hs : s.lm.waits = kept ++ rest)
    (e : Event p (State.walkFrom kept rest s) t) : Event p s t := by
  induction rest generalizing kept s with
  | nil =>
    have hsame : State.walkFrom kept [] s = s := by
      simp only [State.walkFrom]
      rw [← List.append_nil kept, ← hs]
    rwa [hsame] at e
  | cons w rest ih =>
    cases hw : s.walkHandle kept w with
    | some hd =>
      rw [State.walkFrom_grant hw] at e
      exact .part (.grantWait hg hs hw) (ih rfl e)
    | none =>
      rw [State.walkFrom_keep hw] at e
      exact ih (by simp [hs]) e

theorem State.walk_event (e : Event { p with granted := true } s.walk t) : Event p s t :=
  .grants (State.walkFrom_event rfl rfl e)

theorem State.completeWait_event {o : Completion} {w : Wait} (hw : w ∈ s.lm.waits)
    (e : Event p (s.completeWait o w) t) : Event p s t :=
  .part (.completeWaits o [w] (List.singleton_sublist.2 hw)) e

/-! ### Bookings -/

/-- Firing leaves no more bookings, and each its session and slot. -/
theorem fireBookings_keys (f : Booking → Bool) (bs : List Booking) :
    ((fireBookings f bs).map (fun b => (b.session, b.slot))).Sublist (bs.map (fun b => (b.session, b.slot))) := by
  induction bs with
  | nil => exact List.Sublist.refl _
  | cons b bs ih =>
    simp only [fireBookings, List.filterMap_cons] at ih ⊢
    split
    next => exact ih.cons _
    next b' hb =>
      have hkey : (b'.session, b'.slot) = (b.session, b.slot) := by
        split at hb
        · split at hb
          · cases hb
          · cases hb; rfl
        · cases hb; rfl
      rw [List.map_cons, List.map_cons, hkey]
      exact ih.cons_cons _

theorem State.fire_event {f : Booking → Bool} (e : Event p (s.fire f) t) : Event p s t :=
  .part (.rebook _ (fireBookings_keys f s.bookings)) (State.foldl_handNotice_event _ _ _ e)

theorem State.reportIfRaised_event {slot : SlotNo} (e : Event p (s.reportIfRaised slot) t) : Event p s t := by
  unfold State.reportIfRaised at e
  split at e
  · exact State.fire_event e
  · exact e

theorem State.fireIfRaised_event {h : Addr} {slot : SlotNo} (e : Event p (s.fireIfRaised h slot) t) : Event p s t := by
  unfold State.fireIfRaised at e
  split at e
  · exact State.fire_event e
  · exact e

/-! ### The arbiter -/

/-- An answer does not look at the Access Queue. -/
theorem State.answerWith_setQueue (q : List AccessEntry) (h : Addr) (st : Status) (pl : List Byte) (c : Bool) (s : State) :
    (s.setQueue q).answerWith h st pl c = (s.answerWith h st pl c).setQueue q := by
  have hsame : (s.setQueue q).session? h = s.session? h := rfl
  simp only [State.answerWith, hsame]
  cases s.session? h <;> rfl

/-- Serving the Access Queue does not look at its record. -/
theorem State.serveQueue_setQueue (q' q : List AccessEntry) (s : State) :
    State.serveQueue q (s.setQueue q') = State.serveQueue q s := by
  induction q generalizing s with
  | nil => rfl
  | cons e q ih =>
    have hsame : (s.setQueue q').startCheck e = s.startCheck e := rfl
    simp only [State.serveQueue, hsame]
    cases s.startCheck e with
    | error st =>
      dsimp only
      rw [State.answer, State.answerWith_setQueue, ih]
      rfl
    | ok l => rfl

/-- A failed start check: the head is answered, and the rest is served in the state left. -/
theorem State.serveQueue_refuse {e : AccessEntry} {rest : List AccessEntry} {st : Status}
    (hst : s.startCheck e = .error st) :
    State.serveQueue (e :: rest) s = State.serveQueue rest ((s.setQueue rest).answer e.session st []) := by
  have hanswer : (s.setQueue rest).answer e.session st [] = (s.answer e.session st []).setQueue rest :=
    State.answerWith_setQueue rest e.session st [] false s
  rw [hanswer, State.serveQueue_setQueue]
  simp only [State.serveQueue, hst]

theorem State.serveQueue_event {q : List AccessEntry} (hp : p.taken = none) (hd : p.due = true)
    (hc : s.bp.cycle = none) (hi : s.bp.pendingIds = []) (hq : s.bp.queue = q) :
    Event p s (State.serveQueue q s) := by
  induction q generalizing s with
  | nil =>
    have hsame : State.serveQueue [] s = s := by
      simp only [State.serveQueue]
      rw [← hq]
    rw [hsame]
    exact .ending (.noChoice hp (.inr ⟨hq, hi⟩))
  | cons e rest ih =>
    cases hst : s.startCheck e with
    | error st =>
      rw [State.serveQueue_refuse hst]
      refine .part (.refuseHead hp hc hq hd hst) (ih ?_ ?_ ?_)
      · simpa [State.setQueue] using hc
      · simpa [State.setQueue] using hi
      · simp [State.setQueue]
    | ok l =>
      simp only [State.serveQueue, hst]
      exact .ending (.access hp hc hi hq hst)

/-- On a busy backplane the arbiter has no choice. -/
theorem State.arbitrate_busy {c : Cycle} (hc : s.bp.cycle = some c) : s.arbitrate = s := by
  have hid : s.chooseIdentification = s := by simp only [State.chooseIdentification, hc]
  rw [State.arbitrate, hid]
  simp only [State.chooseAccess, hc]

/-- A pending identification goes first. -/
theorem State.arbitrate_identify {slot : SlotNo} {rest : List SlotNo} (hc : s.bp.cycle = none)
    (hi : s.bp.pendingIds = slot :: rest) : s.arbitrate = s.startIdentification slot rest := by
  have hid : s.chooseIdentification = s.startIdentification slot rest := by
    simp only [State.chooseIdentification, hc, hi]
  rw [State.arbitrate, hid]
  rfl

/-- With no identification pending, the Access Queue is served. -/
theorem State.arbitrate_serve (hc : s.bp.cycle = none) (hi : s.bp.pendingIds = []) :
    s.arbitrate = State.serveQueue s.bp.queue s := by
  have hid : s.chooseIdentification = s := by simp only [State.chooseIdentification, hc, hi]
  rw [State.arbitrate, hid]
  simp only [State.chooseAccess, hc, hi]

theorem State.arbitrate_event (hp : p.taken = none) (hd : p.due = true) : Event p s s.arbitrate := by
  cases hc : s.bp.cycle with
  | some c =>
    rw [State.arbitrate_busy hc]
    exact .ending (.noChoice hp (.inl (by simp [hc])))
  | none =>
    cases hi : s.bp.pendingIds with
    | cons slot rest =>
      rw [State.arbitrate_identify hc hi]
      exact .ending (.identify hp hc hi)
    | nil =>
      rw [State.arbitrate_serve hc hi]
      exact State.serveQueue_event hp hd hc hi rfl

/-- A choice of the arbiter that may be due, made. -/
theorem State.arbitrate_ends (hp : p.taken = none) : Event p s s.arbitrate :=
  .claims (State.arbitrate_event hp rfl)

theorem State.identified_event {slot : SlotNo} {o : CycleOutcome} {c : Cycle} (hc : s.bp.cycle = some c)
    (hk : c.kind = .identify slot) (hd : p.due = true) (e : Event p (s.freeBackplane.identified slot o) t) :
    Event p s t := by
  have hslots : s.freeBackplane.slots = s.slots := rfl
  by_cases hs : (s.slots[slot]).state = .identifying
  · refine .part (.identified slot o hc hk hs hd) ?_
    unfold State.identified at e
    simp only [hslots, hs] at e
    exact State.reportIfRaised_event e
  · refine .part (.unidentified slot hc hk hs hd) ?_
    have hsame : s.freeBackplane.identified slot o = s.freeBackplane := by
      unfold State.identified
      rw [hslots]
      split
      next h => exact absurd h hs
      all_goals rfl
    rwa [hsame] at e

theorem State.endCycle_event {o : CycleOutcome} (hp : p.taken = none) (hd : p.due = false) :
    Event p s (s.endCycle o) := by
  unfold State.endCycle
  split
  next => exact .ending (.done hp hd)
  next slot d hc => exact .claims (State.identified_event hc rfl rfl (State.arbitrate_event hp rfl))
  next h slot ch op reg discard d hc =>
    exact .claims (.part (.endAccess _ hc rfl hp rfl) (State.walk_event (State.arbitrate_event hp rfl)))

/-! ### Closing a session -/

/-- A change of session records commutes with what a close removes from the other blocks. -/
theorem State.mapSession_shed (h k : Addr) {f : Session → Session} (hf : ∀ x, (f x).host = x.host) (s : State) :
    (s.shed h).mapSession k f = (s.mapSession k f).shed h := by
  have hmap : (s.sessions.filter (fun x => decide (x.host ≠ h))).map (fun x => if x.host = k then f x else x) =
      (s.sessions.map (fun x => if x.host = k then f x else x)).filter (fun x => decide (x.host ≠ h)) := by
    rw [List.filter_map]
    congr 1
    refine List.filter_congr fun x _ => ?_
    have hx : (if x.host = k then f x else x).host = x.host := by split <;> simp [hf]
    simp [hx]
  simp only [State.shed, State.mapSession, hmap]

theorem State.walkFrom_shed (h : Addr) (kept rest : List Wait) (s : State) :
    State.walkFrom kept rest (s.shed h) = (State.walkFrom kept rest s).shed h := by
  induction rest generalizing kept s with
  | nil => rfl
  | cons w rest ih =>
    have hsame : (s.shed h).walkHandle kept w = s.walkHandle kept w := rfl
    have hgrant (hd : Handle) : (s.shed h).grantWait hd w = (s.grantWait hd w).shed h :=
      State.mapSession_shed h w.session
        (f := fun x => { x with out := x.out.handCompletion w.tag (.granted hd s.lm.nextToken w.term) })
        (fun _ => rfl) (s.addLease (s.newLease hd w.session w.hold w.term))
    simp only [State.walkFrom, hsame]
    cases s.walkHandle kept w with
    | none => exact ih _ s
    | some hd =>
      dsimp only
      rw [hgrant, ih]

/-- The walk of a close may as well come after everything has been removed: it neither grants to the closed session nor
looks at what the other blocks remove. -/
theorem State.closeSession_eq (h : Addr) (s : State) : s.closeSession h = (s.purge h).walk := by
  have hclose : s.closeSession h = (s.closeLeases h).shed h := rfl
  rw [hclose, State.closeLeases, State.purge, State.walk, State.walk, ← State.walkFrom_shed]
  rfl

/-- A close, its request accepted or not. -/
theorem State.closeSession_event {h : Addr} (hg : p.granted = false) (hp : p.taken = none ∨ p.taken = some h)
    (hx : (s.session? h).isSome = true)
    (e : Event { p with taken := none, room := true, granted := true } (s.closeSession h) t) : Event p s t := by
  rw [State.closeSession_eq] at e
  exact .part (.purge h hg hp hx) (State.walk_event e)

/-! ### Answers -/

/-- The progress of a new request that has been accepted. -/
def Progress.opened (h : Addr) : Progress := { Progress.start with taken := some h }

theorem State.answer_event {h : Addr} {st : Status} {pl : List Byte} (hp : p.taken = some h)
    (e : Event { p with taken := none } (s.answer h st pl) t) : Event p s t :=
  .part (.answer st pl false hp) e

theorem State.answer_ends {h : Addr} {st : Status} {pl : List Byte} (hp : p.taken = some h) (hd : p.due = false) :
    Event p s (s.answer h st pl) :=
  State.answer_event hp (.ending (.done rfl hd))

/-- Recording a fault is a change that no law looks at. -/
theorem Session.quiet_markFault (code : FaultCode) (g : Session → Byte × Byte) (i : Option FieldIndex) :
    Quiet (fun x => x.markFault code (g x).1 (g x).2 i) :=
  ⟨fun _ => rfl, fun _ => rfl, fun _ => rfl, fun _ => rfl, fun _ => rfl, fun _ => rfl⟩

theorem State.answerFault_ends {h : Addr} {code : FaultCode} {i : Option FieldIndex} (hp : p.taken = some h)
    (hd : p.due = false) : Event p s (s.answerFault h code i) :=
  .part (.quiet h (Session.quiet_markFault code (fun x => (x.lastKind, x.lastSeq)) i)) (State.answer_ends hp hd)

theorem State.deny_ends {h : Addr} {d : Denial} (hp : p.taken = some h) (hd : p.due = false) :
    Event p s (s.deny h d) := by
  cases d with
  | fault code i => exact State.answerFault_ends hp hd
  | status st => exact State.answer_ends hp hd

/-- A new request through stage 5: turned away, or carried out. -/
theorem State.parsed_ends {α : Type} {h : Addr} {fields : Except Denial α} {run : α → State → State}
    (hp : p.taken = some h) (hd : p.due = false) (hrun : ∀ a, fields = .ok a → Event p s (run a s)) :
    Event p s (s.parsed h fields run) := by
  cases fields with
  | error d => exact State.deny_ends hp hd
  | ok a => exact hrun a rfl

/-! ### Frames -/

/-- A session that resumes changes in nothing that a law looks at. -/
theorem Session.quiet_resume : Quiet Session.resume := by
  constructor <;> intro x <;> unfold Session.resume <;> split <;> rfl

/-- What the acceptance tests say of the addresses (R168). -/
theorem accepted_addresses {node : Addr} {k kind : Byte} {f : Frame} (h : accepted node k kind f = true) :
    node ≠ 0 ∧ frameHost f ≠ 0 := by
  simp only [accepted, Bool.and_eq_true, decide_eq_true_eq] at h
  obtain ⟨⟨⟨-, hnode, -⟩, ⟨hsrc, htop⟩, -⟩, -⟩ := h
  refine ⟨hnode, fun h0 => hsrc ?_⟩
  have hval : f.src.toNat % 16 = 0 := by
    simpa [frameHost] using congrArg BitVec.toNat h0
  exact BitVec.eq_of_toNat_eq (by simp; omega)

theorem State.takeFrame_event {k kind : Byte} {f : Frame} {take : Addr → State → State}
    (htake : ∀ s : State, s.hears → frameHost f ≠ 0 → Event .start s (take (frameHost f) s)) :
    Event .start s (s.takeFrame k kind f take) := by
  unfold State.takeFrame
  split_ifs with hr hf
  · obtain ⟨hnode, hhost⟩ := accepted_addresses hf.2
    exact .part .endReception (.part (.quiet _ Session.quiet_resume) (htake _ ⟨hr, hnode⟩ hhost))
  · exact .part .endReception .nothing
  · exact .nothing

/-- A response that is stored nowhere ends the event. -/
theorem State.reply_ends {h : Addr} {seq : Byte} {st : Status} {pl : List Byte} {o : Owner} (hs : s.hears) :
    Event .start s (s.reply h seq st pl o) :=
  .part (.respond rfl hs) .nothing

theorem State.sequenced_event {x : Session} {h : Addr} {kind seq : Byte} {run : State → State} (hs : s.hears)
    (hx : s.session? h = some x)
    (hrun : ∀ (s : State) (x : Session), s.hears → s.session? h = some x → Event (.opened h) s (run s)) :
    Event .start s (s.sequenced x kind seq run) := by
  have hh : x.host = h := s.session?_host hx
  have hquiet : Quiet (fun y =>
      if x.inFlight then y.markFault .sequence kind seq none
      else { y.markFault .sequence kind seq none with
        lastSeq := seq, lastKind := kind, stored := some { status := .fault, payload := [] } }) := by
    constructor <;> intro y <;> split <;> rfl
  unfold State.sequenced
  split_ifs with hnext hfly hlast
  · exact State.reply_ends hs
  · rw [hh]
    refine .part (.accept h seq kind rfl hx (by simpa using hfly)) (hrun _ (x.accept seq kind) hs ?_)
    rw [State.mapSession_session? s h (fun y => y.accept seq kind) (fun _ => rfl), hx]
    simp [hh]
  · exact .nothing
  · split
    · exact State.reply_ends hs
    · exact .nothing
  · exact .part (.quiet x.host hquiet) (State.reply_ends hs)

/-- A REQUEST other than OPEN. -/
theorem State.takeRequest_event {kind : Byte} {f : Frame} {other run : Addr → State → State}
    (hother : ∀ s : State, s.hears → Event .start s (other (frameHost f) s))
    (hrun : ∀ (s : State) (x : Session), s.hears → s.session? (frameHost f) = some x →
      Event (.opened (frameHost f)) s (run (frameHost f) s)) :
    Event .start s (s.takeRequest kind f other run) := by
  refine State.takeFrame_event fun s hs _ => ?_
  split
  next => exact hother s hs
  next x hx => exact State.sequenced_event hs hx hrun

theorem State.noSession_event {h : Addr} {seq : Byte} (hs : s.hears) : Event .start s (s.noSession seq h) :=
  State.reply_ends hs

/-! ### The requests of the Lease Manager -/

/-- The resource check answers a valid resource (R4). -/
theorem resourceCheck_valid {slots : Vector SlotRecord 16} {i j : FieldIndex} {b c : Byte} {r : Resource}
    (h : resourceCheck slots i j b c = .ok r) : r.valid slots = true := by
  unfold resourceCheck at h
  split at h
  · cases h
  · split at h
    · cases h
    · split at h
      · cases h
      · next hn =>
        split at h
        · cases h
          simp only [Resource.valid, hn]
        · split at h
          · cases h
            simpa only [Resource.valid, hn, decide_eq_true_eq]
          · cases h

/-- What steps 1 to 5 of ACQUIRE have found out (R44). -/
theorem State.acquireChecks_ok {h : Addr} {a : AcquireFields} {r : Resource} (hok : s.acquireChecks h a = .ok r) :
    TermOk s a.term ∧ r.valid s.slots = true ∧ (a.urgent = true → s.isManager h = true) := by
  unfold State.acquireChecks at hok
  split at hok
  · cases hok
  · split at hok
    · cases hok
    · next hr =>
      split_ifs at hok with hterm hclass hlimit
      cases hok
      refine ⟨State.termOk_iff.1 (by simpa using hterm), resourceCheck_valid hr, fun hu => ?_⟩
      simpa [hu] using hclass

/-- The tags of a session that is found. -/
theorem State.tags_eq {h : Addr} {x : Session} (hx : s.session? h = some x) : s.tags h = x.tags := by
  simp only [State.tags, hx]

/-- An answer does not look at the leases, and leaves them alone. -/
theorem State.answer_markConflicts (w : Wait) (h : Addr) (st : Status) (pl : List Byte) (s : State) :
    (s.markConflicts w).answer h st pl = (s.answer h st pl).markConflicts w := by
  have hsame : (s.markConflicts w).session? h = s.session? h := rfl
  simp only [State.answer, State.answerWith, hsame]
  cases s.session? h <;> rfl

/-- A recall marks the leases in conflict, and hands their holders the notices. -/
theorem State.recall_event {w : Wait} (e : Event p (s.recall w) t) : Event p (s.markConflicts w) t :=
  State.foldl_handNotice_event Lease.holder (fun l => .lease .recall l.resource l.handle l.token)
    (recallTargets s.lm.leases w.hold) e

theorem State.deferAcquire_event {h : Addr} {a : AcquireFields} {r : Resource} {x : Session}
    (hx : s.session? h = some x) (ht : TermOk s a.term) (hv : r.valid s.slots = true) (hfresh : a.tag ∉ x.tags)
    (hroom : x.tags.length < Config.maxTags) : Event (.opened h) s (s.deferAcquire h a r) := by
  refine .part (.defer h a r rfl hx ht hv hfresh hroom) ?_
  have hmark (u : State) (w : Wait) (g : Session → Session) :
      (u.markConflicts w).mapSession h g = (u.mapSession h g).markConflicts w := rfl
  unfold State.deferAcquire
  split_ifs
  · rw [hmark]
    refine State.answer_event (h := h) (st := .deferred) (pl := [tagByte a.tag]) rfl ?_
    rw [State.answer_markConflicts]
    exact State.recall_event (.ending (.done rfl rfl))
  · exact State.answer_ends rfl rfl

theorem State.decideAcquire_event {h : Addr} {a : AcquireFields} {r : Resource} {x : Session}
    (hx : s.session? h = some x) (ht : TermOk s a.term) (hv : r.valid s.slots = true) :
    Event (.opened h) s (s.decideAcquire h a r) := by
  simp only [State.decideAcquire]
  split
  next hd hc hfree =>
    exact .grants (.part (.grant h _ a.term rfl hfree hc ht hv (by simp [hx])) (State.answer_ends rfl rfl))
  next =>
    rw [State.tags_eq hx]
    split_ifs with hlimit hgrant hused hmany
    · exact State.answer_ends rfl rfl
    · exact State.answer_ends rfl rfl
    · exact State.answerFault_ends rfl rfl
    · exact State.answerFault_ends rfl rfl
    · exact State.deferAcquire_event hx ht hv (by simpa using hused) (not_le.1 hmany)

theorem State.takeAcquire_event {h : Addr} {pl : List Byte} {x : Session} (hx : s.session? h = some x) :
    Event (.opened h) s (s.takeAcquire pl h) := by
  refine State.parsed_ends rfl rfl fun a _ => ?_
  split
  next => exact State.deny_ends rfl rfl
  next r hok =>
    obtain ⟨ht, hv, -⟩ := State.acquireChecks_ok hok
    exact State.decideAcquire_event hx ht hv

theorem State.takeRenew_event {h : Addr} {pl : List Byte} : Event (.opened h) s (s.takeRenew pl h) := by
  refine State.parsed_ends rfl rfl fun fields _ => ?_
  obtain ⟨handle, token, term⟩ := fields
  dsimp only
  split
  next => exact State.answer_ends rfl rfl
  next l _ =>
    split
    · exact State.answer_ends rfl rfl
    · split_ifs with ht
      · exact .part (.renew l.handle term (State.termOk_iff.1 ht)) (State.answer_ends rfl rfl)
      · exact State.answerFault_ends rfl rfl

theorem State.takeRelease_event {h : Addr} {pl : List Byte} : Event (.opened h) s (s.takeRelease pl h) := by
  refine State.parsed_ends rfl rfl fun fields _ => ?_
  obtain ⟨handle, token⟩ := fields
  dsimp only
  split
  next => exact State.answer_ends rfl rfl
  next l _ =>
    exact State.retire_event rfl (State.answer_event rfl (State.walk_event (.ending (.done rfl rfl))))

theorem State.takeCancel_event {h : Addr} {pl : List Byte} : Event (.opened h) s (s.takeCancel pl h) := by
  refine State.parsed_ends rfl rfl fun tag _ => ?_
  split
  next w hw =>
    have hkey : w.session = h ∧ w.tag = tag := by simpa using List.find?_some hw
    exact .part (.cancel h tag ⟨w, List.mem_of_find?_eq_some hw, hkey⟩)
      (State.answer_event rfl (State.walk_event (.ending (.done rfl rfl))))
  next => exact State.answer_ends rfl rfl

theorem State.takeQuery_event {h : Addr} {pl : List Byte} : Event (.opened h) s (s.takeQuery pl h) := by
  refine State.parsed_ends rfl rfl fun fields _ => ?_
  obtain ⟨slot, channel⟩ := fields
  dsimp only
  split
  · exact State.deny_ends rfl rfl
  · exact State.answer_ends rfl rfl

/-! ### The requests of the other blocks -/

/-- The entry that passes the arrival checks is the requesting session's. -/
theorem State.accessChecks_session {h : Addr} {a : AccessFields} {e : AccessEntry} (hok : s.accessChecks h a = .ok e) :
    e.session = h := by
  unfold State.accessChecks at hok
  split at hok
  · cases hok
  · split at hok
    · cases hok
    · split at hok
      · cases hok
      · split_ifs at hok
        cases hok
        rfl

theorem State.takeAccess_event {h : Addr} {pl : List Byte} {x : Session} (hx : s.session? h = some x) :
    Event (.opened h) s (s.takeAccess pl h) := by
  refine State.parsed_ends rfl rfl fun a _ => ?_
  split
  next => exact State.deny_ends rfl rfl
  next e hok =>
    obtain rfl := State.accessChecks_session hok
    exact .claims (.part (.joinQueue rfl rfl (by simp [hx]) hok) (State.arbitrate_event rfl rfl))

theorem State.takeBook_event {h : Addr} {pl : List Byte} {x : Session} (hx : s.session? h = some x) :
    Event (.opened h) s (s.takeBook pl h) := by
  refine State.parsed_ends rfl rfl fun fields _ => ?_
  obtain ⟨slot, mode⟩ := fields
  refine State.parsed_ends rfl rfl fun slot _ => ?_
  exact .part (.putBooking h slot mode (by simp [hx])) (State.fireIfRaised_event (State.answer_ends rfl rfl))

theorem State.takeUnbook_event {h : Addr} {pl : List Byte} : Event (.opened h) s (s.takeUnbook pl h) := by
  refine State.parsed_ends rfl rfl fun _ _ => State.parsed_ends rfl rfl fun slot _ => ?_
  exact .part (.rebook _ (List.filter_sublist.map _)) (.part (.unbook h slot) (State.answer_ends rfl rfl))

theorem State.takeRearm_event {h : Addr} {pl : List Byte} : Event (.opened h) s (s.takeRearm pl h) := by
  refine State.parsed_ends rfl rfl fun _ _ => State.parsed_ends rfl rfl fun slot _ => ?_
  split
  next => exact State.answer_ends rfl rfl
  next =>
    split
    · exact State.answer_ends rfl rfl
    · have hkeys : (s.armBooking h slot).bookings.map (fun b => (b.session, b.slot)) =
          s.bookings.map (fun b => (b.session, b.slot)) := by
        simp only [State.armBooking, List.map_map]
        exact List.map_congr_left fun b _ => by dsimp only [Function.comp]; split <;> rfl
      exact .part (.rebook _ (hkeys ▸ List.Sublist.refl _)) (State.fireIfRaised_event (State.answer_ends rfl rfl))

/-- What the checks of CONFIGURE have found out (R117). -/
theorem State.configureDenial_none {c : ConfigRecord} (h : s.configureDenial c = none) :
    s.lm.leases = [] ∧ s.lm.waits = [] ∧ c.firstBad = none := by
  unfold State.configureDenial at h
  split at h
  · cases h
  · next hempty =>
    split at h
    · cases h
    · next hbad =>
      rw [not_or, not_not, not_not] at hempty
      exact ⟨hempty.1, hempty.2, hbad⟩

theorem State.takeConfigure_event {h : Addr} {pl : List Byte} : Event (.opened h) s (s.takeConfigure pl h) := by
  refine State.parsed_ends rfl rfl fun c _ => ?_
  split
  · split
    · exact State.deny_ends rfl rfl
    · next hc =>
      obtain ⟨hl, hw, hbad⟩ := State.configureDenial_none hc
      exact .part (.setConfig c hl hw hbad) (State.answer_ends rfl rfl)
  · exact State.answerFault_ends rfl rfl

theorem State.takeResetController_event {h : Addr} {pl : List Byte} :
    Event (.opened h) s (s.takeResetController pl h) := by
  refine State.parsed_ends rfl rfl fun _ _ => ?_
  split
  · exact .part .commitClear (.part (.answer .done [] true rfl) (.ending (.done rfl rfl)))
  · exact State.answerFault_ends rfl rfl

theorem State.takeFetchFault_event {h : Addr} {pl : List Byte} : Event (.opened h) s (s.takeFetchFault pl h) := by
  have hquiet : Quiet (fun x => { x with fault := none }) :=
    ⟨fun _ => rfl, fun _ => rfl, fun _ => rfl, fun _ => rfl, fun _ => rfl, fun _ => rfl⟩
  refine State.parsed_ends rfl rfl fun _ _ => ?_
  split
  · exact .part (.quiet h hquiet) (State.answer_ends rfl rfl)
  · exact State.answer_ends rfl rfl

/-- A close leaves the link able to hear. -/
theorem State.closeSession_hears (h : Addr) (hs : s.hears) : (s.closeSession h).hears := by
  obtain ⟨hr, hnode⟩ := hs
  have hlink : (s.closeSession h).link = s.link.close h := by
    have : (s.closeSession h).link = (s.closeLeases h).link.close h := rfl
    rw [this]
    simp
  have hpanel : (s.closeSession h).panel = s.panel := by
    have : (s.closeSession h).panel = (s.closeLeases h).panel := rfl
    rw [this]
    simp
  refine ⟨?_, by rwa [hpanel]⟩
  rw [State.receives, Bool.and_eq_true, decide_eq_true_eq, decide_eq_true_eq] at hr
  simp [State.receives, hlink, Link.close, hr.1, hr.2]

theorem State.takeClose_event {h : Addr} {seq : Byte} {pl : List Byte} {x : Session} (hs : s.hears)
    (hx : s.session? h = some x) : Event (.opened h) s (s.takeClose seq pl h) := by
  refine State.parsed_ends rfl rfl fun _ _ => ?_
  refine State.closeSession_event (h := h) rfl (.inr rfl) (by simp [hx]) ?_
  exact .part (.respond rfl (State.closeSession_hears h hs)) (.ending (.done rfl rfl))

theorem State.takeOpen_event {h : Addr} {seq : Byte} (hs : s.hears) (h0 : h ≠ 0) :
    Event .start s (s.takeOpen seq h) := by
  unfold State.takeOpen
  split
  next hnew =>
    split_ifs with hroom
    · exact .part (.openSession h seq false rfl hs h0 hnew (.inr hroom)) (.ending (.done rfl rfl))
    · exact State.reply_ends hs
  next x hx =>
    split_ifs
    · exact .nothing
    · split
      · exact State.reply_ends hs
      · exact .nothing
    · have hreplace (u : State) (e : Event { Progress.start with granted := true }
          ((s.closeSession h).openSession h seq true) u) : Event .start s u :=
        State.closeSession_event (h := h) rfl (.inl rfl) (by simp [hx])
          (.part (.openSession h seq true rfl (State.closeSession_hears h hs) h0 (s.closeSession_gone h) (.inl rfl)) e)
      unfold State.replaceSession
      split_ifs
      · exact hreplace _ (.ending (.linkClear rfl))
      · exact hreplace _ (.ending (.done rfl rfl))

end Sys2Proof.Machine
end

section
/-! PROOFS. Every command is an event: the events of the Slot Directory, the Lease Manager's deadlines, the Link
Interface, and all commands together. -/

namespace Sys2Proof.Machine

variable {p : Progress} {s t : State}

/-! ### Deadlines of the Lease Manager -/

theorem State.expireLease_event {handle : Handle} : Event .start s (s.expireLease handle) := by
  unfold State.expireLease
  split
  · exact State.reach_event (State.retire_event rfl (State.walk_event (.ending (.done rfl rfl))))
  · exact .nothing

theorem State.revokeGroup_event {group : Arrival} : Event .start s (s.revokeGroup group) := by
  unfold State.revokeGroup
  split
  · exact State.reach_event (State.retireAll_event rfl (State.walk_event (.ending (.done rfl rfl))))
  · exact .nothing

theorem State.timeOutWait_event {arrival : Arrival} : Event .start s (s.timeOutWait arrival) := by
  unfold State.timeOutWait
  split
  next w hw =>
    have hmem : w ∈ (s.reach w.deadline).lm.waits := List.mem_of_find?_eq_some hw
    exact State.reach_event (State.completeWait_event hmem (State.walk_event (.ending (.done rfl rfl))))
  next => exact .nothing

/-! ### The Slot Directory -/

/-- Several retirements leave the leases whose handles they do not name. -/
theorem State.mem_retireAll {r : Reason} {ls : List Lease} {l : Lease} :
    l ∈ (s.retireAll r ls).lm.leases ↔ l ∈ s.lm.leases ∧ ∀ k ∈ ls, l.handle ≠ k.handle := by
  induction ls generalizing s with
  | nil => simp [State.retireAll]
  | cons k ls ih =>
    have hstep : s.retireAll r (k :: ls) = (s.retire r k).retireAll r ls := rfl
    rw [hstep, ih]
    simp [and_assoc]

/-- The ends of several waits leave the records with another session or tag. -/
theorem State.mem_completeWaits {o : Completion} {ws : List Wait} {w : Wait} :
    w ∈ (s.completeWaits o ws).lm.waits ↔
      w ∈ s.lm.waits ∧ ∀ v ∈ ws, ¬ (w.session = v.session ∧ w.tag = v.tag) := by
  induction ws generalizing s with
  | nil => simp [State.completeWaits]
  | cons v ws ih =>
    have hstep : s.completeWaits o (v :: ws) = (s.completeWait o v).completeWaits o ws := rfl
    have hwaits : (s.completeWait o v).lm.waits =
        s.lm.waits.filter (fun w => !(decide (w.session = v.session) && decide (w.tag = v.tag))) := rfl
    rw [hstep, ih, hwaits]
    simp only [List.mem_filter, Bool.not_eq_true', Bool.and_eq_false_iff, decide_eq_false_iff_not, ← not_and_or, and_assoc,
      List.forall_mem_cons]

theorem State.retireAll_waits {r : Reason} {ls : List Lease} : (s.retireAll r ls).lm.waits = s.lm.waits := by
  induction ls generalizing s with
  | nil => rfl
  | cons l ls ih =>
    have hstep : s.retireAll r (l :: ls) = (s.retire r l).retireAll r ls := rfl
    rw [hstep, ih]
    simp

/-- The Slot Directory's part of a vacate may as well come after the retirements. -/
theorem State.retireAll_emptySlot (slot : SlotNo) (r : Reason) (ls : List Lease) (s : State) :
    (s.emptySlot slot).retireAll r ls = (s.retireAll r ls).emptySlot slot := by
  induction ls generalizing s with
  | nil => rfl
  | cons l ls ih =>
    have hone : (s.emptySlot slot).retire r l = (s.retire r l).emptySlot slot := by
      unfold State.retire
      split <;> rfl
    have hstep (u : State) : u.retireAll r (l :: ls) = (u.retire r l).retireAll r ls := rfl
    rw [hstep, hone, ih, hstep]

theorem State.completeWaits_emptySlot (slot : SlotNo) (o : Completion) (ws : List Wait) (s : State) :
    (s.emptySlot slot).completeWaits o ws = (s.completeWaits o ws).emptySlot slot := by
  induction ws generalizing s with
  | nil => rfl
  | cons w ws ih => exact ih (s.completeWait o w)

/-- What a vacate has removed before its walk (R39, R60). -/
def State.vacated (slot : SlotNo) (s : State) : State :=
  (s.retireAll .vacated (s.lm.leases.filter (fun l => decide (l.resource.slot = slot)))).completeWaits .vacated
    (s.lm.waits.filter (fun w => decide (w.resource.slot = slot)))

theorem State.vacateLeases_emptySlot (slot : SlotNo) (s : State) :
    (s.emptySlot slot).vacateLeases slot = ((s.vacated slot).emptySlot slot).walk := by
  rw [State.vacated, ← State.completeWaits_emptySlot, ← State.retireAll_emptySlot]
  rfl

/-- After a vacate no lease is on the slot. -/
theorem State.vacated_leases {slot : SlotNo} : ∀ l ∈ (s.vacated slot).lm.leases, l.resource.slot ≠ slot := by
  intro l hl hslot
  rw [State.vacated, State.completeWaits_leases, State.mem_retireAll] at hl
  exact hl.2 l (by simp [hl.1, hslot]) rfl

/-- After a vacate no wait record is on the slot. -/
theorem State.vacated_waits {slot : SlotNo} : ∀ w ∈ (s.vacated slot).lm.waits, w.resource.slot ≠ slot := by
  intro w hw hslot
  rw [State.vacated, State.mem_completeWaits, State.retireAll_waits] at hw
  exact hw.2 w (by simp [hw.1, hslot]) ⟨rfl, rfl⟩

theorem State.vacated_slots {slot : SlotNo} : (s.vacated slot).slots = s.slots := by
  simp [State.vacated]

theorem State.vacated_event {slot : SlotNo} (hg : p.granted = false) (e : Event p (s.vacated slot) t) :
    Event p s t :=
  State.retireAll_event hg (.part (.completeWaits _ _ (by rw [State.retireAll_waits]; exact List.filter_sublist)) e)

theorem State.silenceSlot_event {slot : SlotNo} (hp : p.taken = none) (hd : p.due = false) :
    Event p s (s.silenceSlot slot) := by
  unfold State.silenceSlot
  split
  · exact State.endCycle_event hp hd
  · exact .ending (.done hp hd)

/-- The identification that is in flight on a slot that has been emptied ends without being applied (R10). -/
theorem State.silenceSlot_abandon {slot : SlotNo} {c : Cycle} (hc : s.bp.cycle = some c)
    (hk : c.kind = .identify slot) :
    ((s.emptySlot slot).withdraw slot).silenceSlot slot =
      ((s.emptySlot slot).withdraw slot).freeBackplane.arbitrate := by
  obtain ⟨k, d⟩ := c
  obtain rfl : k = .identify slot := hk
  have hcycle : ((s.emptySlot slot).withdraw slot).bp.cycle = some ⟨.identify slot, d⟩ := hc
  have hempty : (((s.emptySlot slot).withdraw slot).freeBackplane.slots[slot]).state = .empty := by
    have hsame : ((s.emptySlot slot).withdraw slot).freeBackplane.slots[slot] =
        { s.slots[slot] with presence := false, state := .empty } :=
      State.setSlot_same s slot (fun r => { r with presence := false, state := .empty })
    rw [hsame]
  have hon : ((s.emptySlot slot).withdraw slot).cycleOn slot = true := by
    simp only [State.cycleOn, hcycle]
    simp [CycleKind.slot, CycleKind.presented]
  rw [State.silenceSlot, if_pos hon]
  simp only [State.endCycle, hcycle, State.identified, hempty]

theorem State.presenceDrop_event {slot : SlotNo} : Event .start s (s.presenceDrop slot) := by
  unfold State.presenceDrop
  split_ifs
  · exact .nothing
  · split
    next hready =>
      rw [State.vacateLeases_emptySlot]
      refine State.vacated_event rfl (.part (.emptySlot slot ?_ fun _ => ⟨State.vacated_leases, State.vacated_waits⟩) ?_)
      · rw [State.vacated_slots, hready]
        simp
      · exact State.walk_event (State.silenceSlot_event rfl rfl)
    next hident =>
      by_cases hc : ∃ c, s.bp.cycle = some c ∧ c.kind = .identify slot
      · obtain ⟨c, hc, hk⟩ := hc
        rw [State.silenceSlot_abandon hc hk]
        exact .claims (.part (.abandon slot hident hc hk rfl) (State.arbitrate_event rfl rfl))
      · exact .part (.withdraw slot hident fun c h hk => hc ⟨c, h, hk⟩) (State.silenceSlot_event rfl rfl)
    all_goals
      next hs =>
      exact .part (.emptySlot slot (by rw [hs]; simp) (by rw [hs]; simp [SlotState.isReady])) .nothing


theorem State.settled_event {slot : SlotNo} : Event .start s (s.settled slot) := by
  unfold State.settled
  split
  next d hs =>
    exact State.reach_event (n := d) (.claims (.part (.settle (d := d) hs rfl) (State.arbitrate_event rfl rfl)))
  all_goals exact .nothing

theorem State.attentionRise_event {slot : SlotNo} : Event .start s (s.attentionRise slot) := by
  unfold State.attentionRise
  split_ifs
  · exact .nothing
  · exact .part (.attention slot true) (State.reportIfRaised_event .nothing)

/-! ### The Link Interface and the Delivery Unit -/

theorem State.takeAck_event {seq : Byte} {h : Addr} (hs : s.hears) : Event .start s (s.takeAck seq h) := by
  rcases s.takeAck_cases seq h with ⟨hf, e⟩ | ⟨_, e⟩ <;> rw [e]
  · have htx : s.link.tx = none := by
      have hr := hs.1
      rw [State.receives, Bool.and_eq_true, decide_eq_true_eq, decide_eq_true_eq] at hr
      exact hr.2
    exact .part (.acknowledge h seq hf htx) .nothing
  · exact .nothing

/-- The session chosen to be sent from is an open one (R159). -/
theorem State.nextSession_found {x : Session} (hx : s.nextSession = some x) :
    s.session? x.host = some x ∧ x.ready = true := by
  unfold State.nextSession at hx
  obtain ⟨h, -, hh⟩ := List.exists_of_findSome?_eq_some hx
  obtain ⟨hfound, hready⟩ := Option.filter_eq_some_iff.1 hh
  rw [s.session?_host hfound]
  exact ⟨hfound, hready⟩

theorem State.chooseFrame_event (hs : s.maySend = true) : Event .start s s.chooseFrame := by
  unfold State.chooseFrame
  split
  next hr => exact .part (.startResponse hs hr) .nothing
  next =>
    split
    next x ha hx =>
      obtain ⟨hfound, -⟩ := State.nextSession_found hx
      split
      next he => exact .part (.startEntry hs ha hfound he) .nothing
      next => exact .nothing
    next => exact .nothing

theorem State.transmissionEnd_event : Event .start s s.transmissionEnd := by
  unfold State.transmissionEnd
  split
  next r _ ht =>
    have hclear (u : State) : Event .start u (if r.clears && u.panel.clearCommitted then u.linkClear else u) := by
      split
      · exact .ending (.linkClear rfl)
      · exact .nothing
    unfold State.responseEnded
    by_cases he : r.endsFlight = true
    · rw [if_pos he]
      exact .part (.responseEnded ht rfl he rfl) (hclear _)
    · rw [if_neg he]
      exact .part (.responseDropped ht rfl (by simpa using he)) (hclear _)
  next ht => exact .part (.entryEnded ht rfl) .nothing
  next => exact .nothing

theorem State.contentionLoss_event : Event .start s s.contentionLoss := by
  unfold State.contentionLoss
  split
  next r _ ht =>
    have hkept : Event .start s
        (if !r.taken && s.endTx.link.responses.any (fun q => decide (q.taken = false) && decide (q.host = r.host))
          then s.endTx
        else { s.endTx with link := { s.endTx.link with responses := r :: s.endTx.link.responses } }) := by
      split_ifs with hdup
      · refine .part (.responseDropped ht rfl ?_) .nothing
        simp only [Bool.and_eq_true, Bool.not_eq_true'] at hdup
        simp [Response.endsFlight, hdup.1]
      · refine .part (.responseReturned ht rfl fun hr q hq hqt hqh => hdup ?_) .nothing
        simp only [hr, Bool.not_false, Bool.true_and, List.any_eq_true]
        exact ⟨q, hq, by simp [hqt, hqh]⟩
    unfold State.responseLost
    split
    next ho =>
      refine .part (.responseDropped ht rfl (by simp [Response.endsFlight, ho])) ?_
      split
      · exact .ending (.linkClear rfl)
      · exact .nothing
    next => exact hkept
    next => exact hkept
  next ht => exact .part (.entryLost ht rfl) .nothing
  next => exact .nothing

theorem State.assertReset_event {sw : Switches} : Event .start s (s.assertReset sw) := by
  unfold State.assertReset
  split_ifs
  · exact .nothing
  · exact .ending (.lineLow sw rfl)

/-! ### Every command -/

/-- Every command is an event. -/
theorem exec_event {i : Instr} (h : exec i s = .next t) : Event .start s t := by
  have hnew {kind : Byte} {f : Frame} {run : Addr → State → State}
      (hrun : ∀ (s : State) (x : Session), s.hears → s.session? (frameHost f) = some x →
        Event (.opened (frameHost f)) s (run (frameHost f) s)) :
      Event .start s (s.takeRequest kind f (State.noSession f.seq) run) :=
    State.takeRequest_event (fun _ hs => State.noSession_event hs) hrun
  cases i with
  | powerOn pins => cases h; exact .ending (.powerOn pins)
  | openSession sw =>
    cases h
    exact .part (.readSwitches sw) (State.takeFrame_event fun _ hs h0 => State.takeOpen_event hs h0)
  | closeSession => cases h; exact hnew fun _ _ hs hx => State.takeClose_event hs hx
  | fetchFault => cases h; exact hnew fun _ _ _ _ => State.takeFetchFault_event
  | acquire => cases h; exact hnew fun _ _ _ hx => State.takeAcquire_event hx
  | renew => cases h; exact hnew fun _ _ _ _ => State.takeRenew_event
  | release => cases h; exact hnew fun _ _ _ _ => State.takeRelease_event
  | cancel => cases h; exact hnew fun _ _ _ _ => State.takeCancel_event
  | query => cases h; exact hnew fun _ _ _ _ => State.takeQuery_event
  | access => cases h; exact hnew fun _ _ _ hx => State.takeAccess_event hx
  | book => cases h; exact hnew fun _ _ _ hx => State.takeBook_event hx
  | unbook => cases h; exact hnew fun _ _ _ _ => State.takeUnbook_event
  | rearm => cases h; exact hnew fun _ _ _ _ => State.takeRearm_event
  | probe =>
    cases h
    exact State.takeRequest_event (fun _ hs => State.reply_ends hs) fun _ _ _ _ => State.answer_ends rfl rfl
  | configure => cases h; exact hnew fun _ _ _ _ => State.takeConfigure_event
  | resetController => cases h; exact hnew fun _ _ _ _ => State.takeResetController_event
  | unknownRequestKind =>
    cases h
    split
    · exact .nothing
    · exact hnew fun _ _ _ _ => State.answerFault_ends rfl rfl
  | ack => cases h; exact State.takeFrame_event fun _ hs _ => State.takeAck_event hs
  | frameDiscard => cases h; split; exacts [.nothing, .part .endReception .nothing]
  | frameTruncated => cases h; exact .part .endReception .nothing
  | transmitStart =>
    cases h
    split
    next hs => exact State.chooseFrame_event hs
    next => exact .nothing
  | transmissionEnd sw => cases h; exact .part (.readSwitches sw) State.transmissionEnd_event
  | contentionLoss => cases h; exact State.contentionLoss_event
  | linkResetAssert => cases h; exact State.assertReset_event
  | linkResetRelease => cases h; exact .part .lineHigh .nothing
  | tackExpiry => cases h; exact .part .tackExpiry .nothing
  | leaseExpiry => cases h; exact State.expireLease_event
  | graceDeadline => cases h; exact State.revokeGroup_event
  | waitDeadline => cases h; exact State.timeOutWait_event
  | switchToService => cases h; exact .part (.setService .service) .nothing
  | switchToOnline =>
    cases h
    split
    · exact .nothing
    · exact .part (.setService .online) (State.walk_event (.ending (.done rfl rfl)))
  | presenceRise slot => cases h; exact .part (.presenceRise slot) .nothing
  | presenceDrop => cases h; exact State.presenceDrop_event
  | settlingDeadline => cases h; exact State.settled_event
  | attentionRise => cases h; exact State.attentionRise_event
  | attentionFall slot => cases h; exact .part (.attention slot false) .nothing
  | identificationStart =>
    cases h
    unfold State.chooseIdentification
    split
    next hc hi => exact .ending (.identify rfl hc hi)
    next => exact .nothing
  | accessStartCheck =>
    cases h
    unfold State.chooseAccess
    split
    next hc hi => exact .claims (State.serveQueue_event rfl rfl hc hi rfl)
    next => exact .nothing
  | moduleAnswer => cases h; split; exacts [State.endCycle_event rfl rfl, .nothing]
  | silenceExpiry =>
    cases h
    unfold State.fallSilent
    split
    · exact State.reach_event (State.endCycle_event rfl rfl)
    · exact .nothing
  | startDelimiter =>
    cases h
    split
    next hr => exact .part (.delimiter hr) .nothing
    next => exact .nothing

/-- Every step is an event. -/
theorem step_event (h : step s = .next t) : Event .start s t := by
  unfold step at h
  split at h
  next =>
    cases h
    unfold State.idle
    split
    · exact .part (.outside s.pending (s.now + 1)) .nothing
    · exact .part (.outside _ s.now) .nothing
  next c rest _ => exact .part (.outside rest s.now) (exec_event h)

/-- What every part keeps and every end turns into a law is kept by every step. -/
theorem step_keeps {I : Progress → State → Prop} {J : State → Prop}
    (hpart : ∀ {p q s t}, Part p s q t → I p s → I q t) (hend : ∀ {p s t}, Ending p s t → I p s → J t)
    (h : step s = .next t) (hi : I .start s) : J t :=
  (step_event h).keeps hpart hend hi

end Sys2Proof.Machine
end

section
/-! PROOFS. What the parts of an event do to the Lease Manager's and the Sequencer's records, said once for the laws; and
the laws of the tables: urgent records first, bookings, configuration and terms (R49, R142, R115, R29). -/

namespace Sys2Proof.Machine

variable {p q : Progress} {s t : State}

/-! ### What some parts write -/

/-- Leases retired CLOSED leave the table, and nothing else changes (R40). -/
theorem State.retireAll_closed (ls : List Lease) (s : State) :
    s.retireAll .closed ls = s.keepLeases (fun l => ls.all (fun k => decide (l.handle ≠ k.handle))) := by
  induction ls generalizing s with
  | nil => simp [State.retireAll, State.keepLeases]
  | cons k ls ih =>
    have hstep : s.retireAll .closed (k :: ls) = (s.dropLease k.handle).retireAll .closed ls := rfl
    rw [hstep, ih]
    simp only [State.keepLeases, State.dropLease, List.filter_filter]
    congr 2
    exact List.filter_congr fun l _ => Bool.and_comm _ _

/-- The leases that a close of this host's session leaves: those whose handle no lease of the session has. -/
def State.sparedBy (h : Addr) (s : State) (l : Lease) : Bool :=
  (s.lm.leases.filter (fun l => decide (l.holder = h))).all (fun k => decide (l.handle ≠ k.handle))

/-- What a close removes, block by block. -/
theorem State.purge_eq (h : Addr) (s : State) : s.purge h = ((s.keepLeases (s.sparedBy h)).setWaits
    (s.lm.waits.filter (fun w => decide (w.session ≠ h)))).shed h := by
  have hwaits (u : State) (keep : Lease → Bool) : (u.keepLeases keep).lm.waits = u.lm.waits := rfl
  simp only [State.purge, State.retireAll_closed, hwaits]
  rfl

/-- A lease that a close spares is not the session's. -/
theorem State.sparedBy_holder {h : Addr} {l : Lease} (hl : l ∈ s.lm.leases) (hs : s.sparedBy h l = true) :
    l.holder ≠ h := by
  intro hh
  have hself := List.all_eq_true.1 hs l (by simp [hl, hh])
  simp at hself

/-- The ends of waits take records from the pool and leave the rest of the Lease Manager alone. -/
theorem State.completeWaits_lm (o : Completion) (ws : List Wait) (s : State) :
    (s.completeWaits o ws).lm.waits.Sublist s.lm.waits ∧
    (s.completeWaits o ws).lm = { s.lm with waits := (s.completeWaits o ws).lm.waits } := by
  induction ws generalizing s with
  | nil => exact ⟨List.Sublist.refl _, rfl⟩
  | cons w ws ih =>
    obtain ⟨hsub, heq⟩ := ih (s.completeWait o w)
    refine ⟨hsub.trans List.filter_sublist, ?_⟩
    exact heq.trans rfl

/-- What a walk has found out about a record that it grants (R52). -/
theorem State.walkHandle_some {kept : List Wait} {w : Wait} {hd : Handle} (h : s.walkHandle kept w = some hd) :
    s.panel.service = .online ∧ (s.slots[w.resource.slot]).state.isReady = true ∧ s.grantable kept w.hold = true ∧
    freeHandle s.lm.leases = some hd := by
  unfold State.walkHandle at h
  split at h
  next hc => exact ⟨hc.1, hc.2.1, hc.2.2, h⟩
  next => cases h

/-- A candidate is grantable when it is compatible with every live lease, with the guard and with the earlier waits
(R50, R51). -/
theorem State.grantable_iff {earlier : List Wait} {c : Hold} : s.grantable earlier c = true ↔
    (∀ l ∈ s.lm.leases, c.compatible l.hold = true) ∧
    (∀ g, s.bp.guardHold = some g → c.compatible g = true) ∧ ∀ w ∈ earlier, c.compatible w.hold = true := by
  cases hguard : s.bp.guardHold with
  | none => simp [State.grantable, hguard]
  | some g => simp [State.grantable, hguard, and_assoc]

/-- Taking a record out of a list leaves a sublist. -/
theorem sublist_without {α : Type} {as kept rest : List α} {a : α} (h : as = kept ++ a :: rest) :
    (kept ++ rest).Sublist as :=
  h ▸ (List.Sublist.refl kept).append (List.sublist_cons_self a rest)

@[simp] theorem State.tackExpiry_frame (s : State) :
    s.tackExpiry.lm = s.lm ∧ s.tackExpiry.bp = s.bp ∧ s.tackExpiry.slots = s.slots ∧
    s.tackExpiry.bookings = s.bookings ∧ s.tackExpiry.panel = s.panel ∧ s.tackExpiry.link = s.link := by
  unfold State.tackExpiry
  split <;> exact ⟨rfl, rfl, rfl, rfl, rfl, rfl⟩

@[simp] theorem State.presenceRise_frame (slot : SlotNo) (s : State) :
    (s.presenceRise slot).lm = s.lm ∧ (s.presenceRise slot).bp = s.bp ∧ (s.presenceRise slot).bookings = s.bookings ∧
    (s.presenceRise slot).panel = s.panel ∧ (s.presenceRise slot).link = s.link ∧
    (s.presenceRise slot).sessions = s.sessions ∧ (s.presenceRise slot).delivery = s.delivery := by
  unfold State.presenceRise
  split <;> exact ⟨rfl, rfl, rfl, rfl, rfl, rfl, rfl⟩

/-- An answer that is formed unless it is to be discarded changes the session records and the responses alone. -/
@[simp] theorem State.answerUnless_frame (h : Addr) (pl : List Byte) (discard : Bool) (s : State) :
    (if discard then s else s.answer h .done pl).lm = s.lm ∧
    (if discard then s else s.answer h .done pl).bp = s.bp ∧
    (if discard then s else s.answer h .done pl).slots = s.slots ∧
    (if discard then s else s.answer h .done pl).bookings = s.bookings ∧
    (if discard then s else s.answer h .done pl).delivery = s.delivery ∧
    (if discard then s else s.answer h .done pl).panel = s.panel := by
  cases discard <;> simp

/-- A deferred ACQUIRE leaves the blocks but the Lease Manager and the session records alone. -/
@[simp] theorem State.deferred_frame (a : AcquireFields) (w : Wait) (s : State) :
    (if a.urgent then (s.addWait w).markConflicts w else s.addWait w).bp = s.bp ∧
    (if a.urgent then (s.addWait w).markConflicts w else s.addWait w).sessions = s.sessions ∧
    (if a.urgent then (s.addWait w).markConflicts w else s.addWait w).slots = s.slots ∧
    (if a.urgent then (s.addWait w).markConflicts w else s.addWait w).bookings = s.bookings ∧
    (if a.urgent then (s.addWait w).markConflicts w else s.addWait w).delivery = s.delivery ∧
    (if a.urgent then (s.addWait w).markConflicts w else s.addWait w).panel = s.panel ∧
    (if a.urgent then (s.addWait w).markConflicts w else s.addWait w).link = s.link ∧
    (if a.urgent then (s.addWait w).markConflicts w else s.addWait w).lm.waits = insertWait w s.lm.waits ∧
    (if a.urgent then (s.addWait w).markConflicts w else s.addWait w).lm.tokenCounter = s.lm.tokenCounter ∧
    (if a.urgent then (s.addWait w).markConflicts w else s.addWait w).lm.arrivalCounter = w.arrival := by
  split <;> exact ⟨rfl, rfl, rfl, rfl, rfl, rfl, rfl, rfl, rfl, rfl⟩

/-- A deferred ACQUIRE changes state fields of leases alone (R70). -/
theorem State.deferred_leases (a : AcquireFields) (w : Wait) (s : State) :
    ∃ f : Lease → Lease, (∀ l, (f l).sansState = l.sansState) ∧
      (if a.urgent then (s.addWait w).markConflicts w else s.addWait w).lm.leases = s.lm.leases.map f := by
  split
  · refine ⟨_, fun l => ?_, rfl⟩
    split <;> rfl
  · exact ⟨id, fun _ => rfl, (List.map_id _).symm⟩

/-! ### The Wait Pool in pool order -/

/-- In pool order every urgent record stands before every normal record (R49). -/
abbrev UrgentSorted (ws : List Wait) : Prop := ws.Pairwise (fun a b => b.urgent = true → a.urgent = true)

/-- Behind a normal record all are normal. -/
theorem UrgentSorted.dropWhile_normal {ws : List Wait} (h : UrgentSorted ws) :
    ∀ w ∈ ws.dropWhile Wait.urgent, w.urgent = false := by
  induction ws with
  | nil => simp
  | cons v ws ih =>
    obtain ⟨hv, hws⟩ := List.pairwise_cons.1 h
    cases hu : v.urgent with
    | true => simpa [List.dropWhile_cons, hu] using ih hws
    | false =>
      simp only [List.dropWhile_cons, hu]
      intro w hw
      rcases List.mem_cons.1 hw with rfl | hw
      · exact hu
      · cases hw' : w.urgent with
        | false => rfl
        | true => exact (hu.symm.trans (hv w hw hw')).symm

theorem mem_takeWhile_urgent {ws : List Wait} {w : Wait} (h : w ∈ ws.takeWhile Wait.urgent) : w.urgent = true := by
  have := List.all_takeWhile (p := Wait.urgent) (l := ws)
  exact List.all_eq_true.1 this w h

/-- A record joins after the last urgent one when it is urgent, and at the end otherwise (R49). -/
theorem UrgentSorted.insertWait {ws : List Wait} (h : UrgentSorted ws) (w : Wait) : UrgentSorted (insertWait w ws) := by
  unfold Machine.insertWait
  split
  next hu =>
    rw [UrgentSorted, List.pairwise_append, List.pairwise_cons]
    refine ⟨h.sublist (List.takeWhile_sublist _), ⟨fun _ _ _ => hu, h.sublist (List.dropWhile_sublist _)⟩, ?_⟩
    exact fun a ha _ _ _ => mem_takeWhile_urgent ha
  next hu =>
    rw [UrgentSorted, List.pairwise_append]
    refine ⟨h, List.pairwise_singleton _ _, fun a _ b hb hbu => ?_⟩
    obtain rfl := List.mem_singleton.1 hb
    exact absurd hbu hu

theorem Part.urgentFirst (h : Part p s q t) (hi : UrgentFirst s) : UrgentFirst t := by
  unfold UrgentFirst at hi ⊢
  cases h with
  | answer | refuseHead | tackExpiry | presenceRise | endAccess => simpa [State.setQueue] using hi
  | entryLost => simpa using hi
  | purge => rw [State.purge_eq]; exact hi.sublist List.filter_sublist
  | grantWait _ hw => exact hi.sublist (sublist_without hw)
  | defer => simpa using UrgentSorted.insertWait hi _
  | cancel => exact hi.sublist List.filter_sublist
  | completeWaits => exact hi.sublist (State.completeWaits_lm _ _ _).1
  | _ => exact hi

theorem Ending.urgentFirst (h : Ending p s t) (hi : UrgentFirst s) : UrgentFirst t := by
  cases h with
  | linkClear | lineLow | powerOn => exact List.Pairwise.nil
  | _ => exact hi

/-! ### Bookings and the configuration record -/

theorem Part.bookingsDistinct (h : Part p s q t) (hi : BookingsDistinct s) : BookingsDistinct t := by
  unfold BookingsDistinct at hi ⊢
  cases h with
  | answer | refuseHead | tackExpiry | presenceRise | endAccess | completeWaits | defer =>
    simpa [State.setQueue] using hi
  | entryLost => simpa using hi
  | purge => rw [State.purge_eq]; exact hi.sublist (List.filter_sublist.map _)
  | putBooking h slot mode =>
    have hnew : (h, slot) ∉ (s.bookings.filter (fun b => !b.isOf h slot)).map (fun b => (b.session, b.slot)) := by
      simp only [List.mem_map, List.mem_filter, Booking.isOf]
      rintro ⟨b, ⟨-, hb⟩, hkey⟩
      simp_all
    simp only [State.putBooking, List.map_append]
    exact (hi.sublist (List.filter_sublist.map _)).append (List.nodup_singleton _) (List.disjoint_singleton.2 hnew)
  | rebook bs hb => exact hi.sublist hb
  | _ => exact hi

theorem Ending.bookingsDistinct (h : Ending p s t) (hi : BookingsDistinct s) : BookingsDistinct t := by
  cases h with
  | linkClear | lineLow | powerOn => exact List.nodup_nil
  | _ => exact hi

theorem Part.configLaw (h : Part p s q t) (hi : ConfigLaw s) : ConfigLaw t := by
  unfold ConfigLaw at hi ⊢
  cases h with
  | answer | refuseHead | tackExpiry | presenceRise | endAccess | completeWaits | defer =>
    simpa [State.setQueue] using hi
  | entryLost => simpa using hi
  | purge => rw [State.purge_eq]; exact hi
  | setConfig c _ _ hc => exact hc
  | _ => exact hi

theorem Ending.configLaw (h : Ending p s t) (hi : ConfigLaw s) : ConfigLaw t := by
  cases h with
  | powerOn => rfl
  | _ => exact hi

/-! ### Terms -/

/-- The term law rests on the two tables and on max term. -/
theorem TermLaw.of_tables (hi : TermLaw s) (hl : ∀ l ∈ t.lm.leases, ∃ k ∈ s.lm.leases, l.term = k.term)
    (hw : ∀ w ∈ t.lm.waits, w ∈ s.lm.waits) (hp : t.panel.config = s.panel.config) : TermLaw t := by
  have hok (term : Word16) (h : TermOk s term) : TermOk t term := by
    unfold TermOk at h ⊢
    rwa [hp]
  refine ⟨fun l hl' => ?_, fun w hw' => hok _ (hi.waits w (hw w hw'))⟩
  obtain ⟨k, hk, hterm⟩ := hl l hl'
  rw [hterm]
  exact hok _ (hi.leases k hk)

theorem TermLaw.congr (hi : TermLaw s) (hl : t.lm = s.lm) (hp : t.panel = s.panel) : TermLaw t :=
  hi.of_tables (by rw [hl]; exact fun l h => ⟨l, h, rfl⟩) (by rw [hl]; exact fun _ h => h) (by rw [hp])

/-- A state field is not a term. -/
theorem Lease.term_eq_of_sansState {a b : Lease} (h : a.sansState = b.sansState) : a.term = b.term :=
  show a.sansState.term = b.sansState.term from congrArg Lease.term h

theorem mem_insertWait {v w : Wait} {ws : List Wait} : v ∈ insertWait w ws ↔ v = w ∨ v ∈ ws := by
  unfold insertWait
  split
  · have hsplit : ws.takeWhile Wait.urgent ++ ws.dropWhile Wait.urgent = ws := List.takeWhile_append_dropWhile
    conv_rhs => rw [← hsplit]
    simp only [List.mem_append, List.mem_cons]
    tauto
  · simp [or_comm]

theorem Part.termLaw (h : Part p s q t) (hi : TermLaw s) : TermLaw t := by
  cases h with
  | answer | refuseHead | tackExpiry | presenceRise | endAccess => exact hi.congr (by simp [State.setQueue]) (by simp [State.setQueue])
  | entryLost => exact hi.congr (by simp) (by simp)
  | purge =>
    rw [State.purge_eq]
    exact hi.of_tables (fun l hl => ⟨l, List.mem_of_mem_filter hl, rfl⟩) (fun w hw => List.mem_of_mem_filter hw) rfl
  | retire => exact hi.of_tables (fun l hl => ⟨l, List.mem_of_mem_filter hl, rfl⟩) (fun _ h => h) rfl
  | renew handle term ht =>
    refine ⟨fun l hl => ?_, hi.waits⟩
    obtain ⟨k, hk, rfl⟩ := List.mem_map.1 hl
    split
    · exact ht
    · exact hi.leases k hk
  | grant h c term hg hfree hc ht =>
    refine ⟨fun l hl => ?_, hi.waits⟩
    rcases List.mem_append.1 hl with hl | hl
    · exact hi.leases l hl
    · obtain rfl := List.mem_singleton.1 hl
      exact ht
  | @grantWait _ _ _ w _ hw =>
    have hwmem : w ∈ s.lm.waits := by simp [hw]
    refine ⟨fun l hl => ?_, fun v hv => hi.waits v ((sublist_without hw).subset hv)⟩
    rcases List.mem_append.1 hl with hl | hl
    · exact hi.leases l hl
    · obtain rfl := List.mem_singleton.1 hl
      exact hi.waits w hwmem
  | defer h a r _ _ ht =>
    obtain ⟨f, hf, hls⟩ := State.deferred_leases a (s.newWait h a r) s
    refine ⟨fun l hl => ?_, fun w hw => ?_⟩
    · obtain ⟨k, hk, rfl⟩ := List.mem_map.1 (hls ▸ hl)
      have hk' := hi.leases k hk
      simp only [TermOk, Lease.term_eq_of_sansState (hf k)] at hk' ⊢
      simpa using hk'
    · simp only [State.mapSession_frame, State.deferred_frame, TermOk] at hw ⊢
      rcases mem_insertWait.1 hw with rfl | hw
      · exact ht
      · exact hi.waits w hw
  | cancel => exact hi.of_tables (fun l hl => ⟨l, hl, rfl⟩) (fun w hw => List.mem_of_mem_filter hw) rfl
  | completeWaits o ws =>
    obtain ⟨hsub, heq⟩ := State.completeWaits_lm o ws s
    exact hi.of_tables (by rw [State.completeWaits_leases]; exact fun l hl => ⟨l, hl, rfl⟩) (fun w hw => hsub.subset hw) (by simp)
  | setConfig c hl hw => exact ⟨by simp [hl], by simp [hw]⟩
  | _ => exact ⟨hi.leases, hi.waits⟩

theorem Ending.termLaw (h : Ending p s t) (hi : TermLaw s) : TermLaw t := by
  cases h with
  | linkClear | lineLow | powerOn => exact ⟨fun _ h => absurd h List.not_mem_nil, fun _ h => absurd h List.not_mem_nil⟩
  | _ => exact ⟨hi.leases, hi.waits⟩

/-- Settles O49: each of the four laws is kept by every part of an event and by its end. -/
theorem stepKeepsTableForms : Obligations.StepKeepsTableForms := by
  intro s t h
  exact ⟨step_keeps (I := fun _ => UrgentFirst) Part.urgentFirst Ending.urgentFirst h,
    step_keeps (I := fun _ => BookingsDistinct) Part.bookingsDistinct Ending.bookingsDistinct h,
    step_keeps (I := fun _ => ConfigLaw) Part.configLaw Ending.configLaw h,
    step_keeps (I := fun _ => TermLaw) Part.termLaw Ending.termLaw h⟩

end Sys2Proof.Machine
end

section
/-! PROOFS. The laws of the Lease Table: handles and tokens (R19, R25, R26), compatibility and the guard (R27, R132), valid
resources (R28, R48). -/

namespace Sys2Proof.Machine

variable {p q : Progress} {s t : State}

/-! ### What a part can do to the Lease Table -/

/-- Two records of one lease: handle, holder, resource, mode and token are the same. -/
structure Lease.Same (a b : Lease) : Prop where
  handle : a.handle = b.handle
  holder : a.holder = b.holder
  resource : a.resource = b.resource
  mode : a.mode = b.mode
  token : a.token = b.token

theorem Lease.Same.hold {a b : Lease} (h : a.Same b) : a.hold = b.hold := by
  simp only [Lease.hold, h.resource, h.mode]

/-- A state field is no part of what a lease is. -/
theorem Lease.same_of_sansState {a b : Lease} (h : a.sansState = b.sansState) : a.Same b :=
  ⟨show a.sansState.handle = b.sansState.handle from congrArg Lease.handle h,
   show a.sansState.holder = b.sansState.holder from congrArg Lease.holder h,
   show a.sansState.resource = b.sansState.resource from congrArg Lease.resource h,
   show a.sansState.mode = b.sansState.mode from congrArg Lease.mode h,
   show a.sansState.token = b.sansState.token from congrArg Lease.token h⟩

/-- A grant: the new record has a free handle, the next token and a hold that fits beside the live leases and the guard,
and a resource that is valid as far as those of the wait records are. -/
structure Grants (s : State) (l : Lease) : Prop where
  free : freeHandle s.lm.leases = some l.handle
  token : l.token = s.lm.nextToken
  fits : ∀ k ∈ s.lm.leases, l.hold.compatible k.hold = true
  fitsGuard : ∀ g, s.bp.guardHold = some g → l.hold.compatible g = true
  valid : l.resource.valid s.slots = true ∨ ∃ w ∈ s.lm.waits, w.resource = l.resource

/-- What a part can do to the Lease Table and the token counter: rewrite records in place, remove some before any grant, or
grant. -/
inductive TableStep (p : Progress) (s t : State) : Prop
  | rewrite (f : Lease → Lease) (hf : ∀ l, (f l).Same l) (hl : t.lm.leases = s.lm.leases.map f)
      (hc : t.lm.tokenCounter = s.lm.tokenCounter)
  | fewer (hg : p.granted = false) (hl : t.lm.leases.Sublist s.lm.leases) (hc : t.lm.tokenCounter = s.lm.tokenCounter)
  | grant (l : Lease) (hg : p.granted = true) (hl : t.lm.leases = s.lm.leases ++ [l])
      (hc : t.lm.tokenCounter = advanceToken l.token) (hgrant : Grants s l)
      (hguard : t.bp.guardHold = s.bp.guardHold) (hcycle : t.bp.cycle = s.bp.cycle) (hslots : t.slots = s.slots)

theorem TableStep.same (hl : t.lm.leases = s.lm.leases) (hc : t.lm.tokenCounter = s.lm.tokenCounter) :
    TableStep p s t :=
  .rewrite id (fun _ => ⟨rfl, rfl, rfl, rfl, rfl⟩) (by simp [hl]) hc

theorem TableStep.of_lm (h : t.lm = s.lm) : TableStep p s t := .same (by rw [h]) (by rw [h])

theorem Part.tableStep (h : Part p s q t) : TableStep p s t := by
  cases h with
  | answer | refuseHead | tackExpiry | presenceRise | endAccess => exact .of_lm (by simp [State.setQueue])
  | entryLost => exact .of_lm (by simp)
  | purge h hg => rw [State.purge_eq]; exact .fewer hg List.filter_sublist rfl
  | retire keep hg => exact .fewer hg List.filter_sublist rfl
  | renew handle term => exact .rewrite _ (fun l => by split <;> exact ⟨rfl, rfl, rfl, rfl, rfl⟩) rfl rfl
  | grant h c term hg hfree hc ht hv =>
    obtain ⟨hls, hgd, -⟩ := State.grantable_iff.1 hc
    exact .grant _ hg rfl rfl ⟨hfree, rfl, hls, hgd, .inl hv⟩ rfl rfl rfl
  | @grantWait _ _ _ w hg hw hh =>
    obtain ⟨-, -, hc, hfree⟩ := State.walkHandle_some hh
    obtain ⟨hls, hgd, -⟩ := State.grantable_iff.1 hc
    exact .grant (s.newLease _ w.session w.hold w.term) hg rfl rfl
      ⟨hfree, rfl, hls, hgd, .inr ⟨w, by simp [hw], rfl⟩⟩ rfl rfl rfl
  | defer h a r =>
    obtain ⟨f, hf, hls⟩ := State.deferred_leases a (s.newWait h a r) s
    exact .rewrite f (fun l => Lease.same_of_sansState (hf l)) hls (by simp)
  | completeWaits o ws =>
    refine .same (State.completeWaits_leases _ _ _) ?_
    rw [(State.completeWaits_lm o ws s).2]
  | _ => exact .same rfl rfl

/-! ### Handles and tokens -/

theorem TableStep.handlesDistinct (h : TableStep p s t) (hi : HandlesDistinct s) : HandlesDistinct t := by
  unfold HandlesDistinct at hi ⊢
  cases h with
  | rewrite f hf hl => rwa [hl, map_handle_map fun l => (hf l).handle]
  | fewer _ hl => exact hi.sublist (hl.map _)
  | grant l _ hl _ hgrant =>
    rw [hl, List.map_append]
    exact hi.append (List.nodup_singleton _) (List.disjoint_singleton.2 (freeHandle_free hgrant.free))

theorem Part.handlesDistinct (h : Part p s q t) (hi : HandlesDistinct s) : HandlesDistinct t :=
  h.tableStep.handlesDistinct hi

/-- A grant has a token that no live lease carries (R26): at most 64 leases are live (R21). -/
theorem TableStep.tokensDistinct (h : TableStep p s t) (hd : HandlesDistinct s) (hi : TokensDistinct s) :
    TokensDistinct t := by
  obtain ⟨hnodup, hnonzero, hcounter⟩ := hi
  cases h with
  | rewrite f hf hl hc =>
    have htokens : t.lm.leases.map Lease.token = s.lm.leases.map Lease.token := by
      rw [hl, List.map_map]
      exact List.map_congr_left fun l _ => (hf l).token
    refine ⟨by rwa [htokens], fun l hl' => ?_, by rwa [hc]⟩
    obtain ⟨k, hk, rfl⟩ := List.mem_map.1 (hl ▸ hl')
    rw [(hf k).token]
    exact hnonzero k hk
  | fewer _ hl hc => exact ⟨hnodup.sublist (hl.map _), fun l h => hnonzero l (hl.subset h), by rwa [hc]⟩
  | grant l _ hl hc hgrant =>
    obtain ⟨hfresh, hnz⟩ := s.lm.nextToken_free hd.length_le hcounter
    rw [← hgrant.token] at hfresh hnz
    refine ⟨?_, fun k hk => ?_, by rw [hc]; exact advanceToken_ne_zero⟩
    · rw [hl, List.map_append]
      exact hnodup.append (List.nodup_singleton _) (List.disjoint_singleton.2 hfresh)
    · rcases List.mem_append.1 (hl ▸ hk) with hk | hk
      · exact hnonzero k hk
      · rwa [List.mem_singleton.1 hk]

/-- At the end of an event no lease is new, and none has changed, but that all may be gone. -/
theorem Ending.lm_cases (h : Ending p s t) :
    t.lm = s.lm ∨ (t.lm.leases = [] ∧ t.lm.waits = [] ∧ t.lm.arrivalCounter = 0 ∧
      (t.lm.tokenCounter = s.lm.tokenCounter ∨ t.lm.tokenCounter = 1)) := by
  cases h with
  | linkClear | lineLow => exact .inr ⟨rfl, rfl, rfl, .inl rfl⟩
  | powerOn => exact .inr ⟨rfl, rfl, rfl, .inr rfl⟩
  | _ => exact .inl rfl

theorem Ending.tokensDistinct (h : Ending p s t) (hi : TokensDistinct s) : TokensDistinct t := by
  rcases h.lm_cases with hlm | ⟨hl, -, -, hc⟩
  · exact ⟨hlm ▸ hi.nodup, hlm ▸ hi.nonzero, hlm ▸ hi.counter⟩
  · refine ⟨by rw [hl]; exact List.nodup_nil, by rw [hl]; exact fun _ h => absurd h List.not_mem_nil, ?_⟩
    rcases hc with hc | hc
    · rw [hc]; exact hi.counter
    · rw [hc]; decide

/-- Settles O47: handles bound the table, so the search for a token ends on a free one. -/
theorem stepKeepsTokensDistinct : Obligations.StepKeepsTokensDistinct := by
  intro s t hd hi h
  exact step_keeps (I := fun _ u => HandlesDistinct u ∧ TokensDistinct u)
    (fun hp ⟨hd, hi⟩ => ⟨hp.handlesDistinct hd, hp.tableStep.tokensDistinct hd hi⟩)
    (fun he ⟨_, hi⟩ => he.tokensDistinct hi) h ⟨hd, hi⟩

/-! ### Compatibility and the guard -/

theorem Resource.overlaps_comm (a b : Resource) : a.overlaps b = b.overlaps a := by
  obtain ⟨sa, ca⟩ := a
  obtain ⟨sb, cb⟩ := b
  by_cases hslot : sa = sb
  · subst hslot
    simp only [Resource.overlaps, decide_true, Bool.true_and, eq_comm (a := ca) (b := cb)]
    rw [Bool.or_comm (decide (ca = none))]
  · simp [Resource.overlaps, hslot, Ne.symm hslot]

theorem Hold.compatible_comm (a b : Hold) : a.compatible b = b.compatible a := by
  simp only [Hold.compatible, Resource.overlaps_comm a.resource]
  rw [Bool.and_comm]

/-- An EXCLUSIVE hold is not compatible with itself. -/
theorem Hold.compatible_self {g : Hold} (hg : g.mode = .exclusive) : g.compatible g = false := by
  simp [Hold.compatible, Resource.overlaps, hg]

theorem TableStep.leasesCompatible (h : TableStep p s t) (hi : LeasesCompatible s) : LeasesCompatible t := by
  unfold LeasesCompatible at hi ⊢
  cases h with
  | rewrite f hf hl =>
    rw [hl, List.pairwise_map]
    exact hi.imp fun h => by rwa [(hf _).hold, (hf _).hold]
  | fewer _ hl => exact hi.sublist hl
  | grant l _ hl _ hgrant =>
    rw [hl, List.pairwise_append]
    refine ⟨hi, List.pairwise_singleton _ _, fun k hk l' hl' => ?_⟩
    rw [List.mem_singleton.1 hl', Hold.compatible_comm]
    exact hgrant.fits k hk

/-- The guard law rests on the holds and holders of the leases, the guard, and the session of the cycle. -/
theorem GuardLaw.of_sublist (hi : GuardLaw s) (hl : t.lm.leases.Sublist s.lm.leases)
    (hg : t.bp.guardHold = s.bp.guardHold)
    (hc : ∀ h, (∃ c, s.bp.cycle = some c ∧ c.kind.session? = some h) → ∃ c, t.bp.cycle = some c ∧ c.kind.session? = some h) :
    GuardLaw t := by
  refine ⟨fun g hg' l hl' => ?_, fun g hg' hmode => ?_⟩
  · rcases hi.agrees g (hg ▸ hg') l (hl.subset hl') with h | ⟨h, h'⟩
    · exact .inl h
    · exact .inr ⟨h, hc _ h'⟩
  · exact (hl.countP_le).trans (hi.single g (hg ▸ hg') hmode)

/-- Without a guard there is nothing to agree with. -/
theorem GuardLaw.of_no_guard (hg : t.bp.guardHold = none) : GuardLaw t :=
  ⟨by simp [hg], by simp [hg]⟩

theorem GuardLaw.of_no_leases (hl : t.lm.leases = []) : GuardLaw t :=
  ⟨by simp [hl], by simp [hl]⟩

theorem TableStep.guardLaw (h : TableStep p s t) (hg : t.bp.guardHold = s.bp.guardHold)
    (hc : ∀ h, (∃ c, s.bp.cycle = some c ∧ c.kind.session? = some h) → ∃ c, t.bp.cycle = some c ∧ c.kind.session? = some h)
    (hi : GuardLaw s) : GuardLaw t := by
  cases h with
  | rewrite f hf hl =>
    refine ⟨fun g hg' l hl' => ?_, fun g hg' hmode => ?_⟩
    · obtain ⟨k, hk, rfl⟩ := List.mem_map.1 (hl ▸ hl')
      rw [(hf k).hold, (hf k).holder]
      rcases hi.agrees g (hg ▸ hg') k hk with h | ⟨h, h'⟩
      · exact .inl h
      · exact .inr ⟨h, hc _ h'⟩
    · have hcount : t.lm.leases.countP (fun l => decide (l.hold = g)) =
          s.lm.leases.countP (fun l => decide (l.hold = g)) := by
        rw [hl, List.countP_map]
        exact List.countP_congr fun l _ => by simp [(hf l).hold]
      exact hcount.trans_le (hi.single g (hg ▸ hg') hmode)
  | fewer _ hl => exact hi.of_sublist hl hg hc
  | grant l _ hl _ hgrant =>
    refine ⟨fun g hg' k hk => ?_, fun g hg' hmode => ?_⟩
    · rcases List.mem_append.1 (hl ▸ hk) with hk | hk
      · rcases hi.agrees g (hg ▸ hg') k hk with h | ⟨h, h'⟩
        · exact .inl h
        · exact .inr ⟨h, hc _ h'⟩
      · rw [List.mem_singleton.1 hk, Hold.compatible_comm]
        exact .inl (hgrant.fitsGuard g (hg ▸ hg'))
    · have hne : l.hold ≠ g := by
        rintro rfl
        have := hgrant.fitsGuard _ (hg ▸ hg')
        rw [Hold.compatible_self hmode] at this
        cases this
      rw [hl, List.countP_append]
      simpa [hne] using hi.single g (hg ▸ hg') hmode

/-- Setting discard marks changes no cycle's session. -/
theorem CycleKind.discardIf_session? (f : Addr → Bool) (k : CycleKind) : (k.discardIf f).session? = k.session? := by
  cases k <;> rfl

/-- Setting the discard mark leaves the session of the cycle. -/
theorem cycle_session_of_discardIf {c : Option Cycle} {f : Addr → Bool} {h : Addr}
    (hc : ∃ d, c = some d ∧ d.kind.session? = some h) :
    ∃ d, c.map (fun d => { d with kind := d.kind.discardIf f }) = some d ∧ d.kind.session? = some h := by
  obtain ⟨d, rfl, hd⟩ := hc
  exact ⟨_, rfl, by rw [← hd]; exact CycleKind.discardIf_session? f d.kind⟩

/-- What a part can do to the guard and the cycle's session: nothing, or clear the guard. -/
theorem Part.guard_cases (h : Part p s q t) :
    t.bp.guardHold = none ∨ (t.bp.guardHold = s.bp.guardHold ∧
      ∀ h, (∃ c, s.bp.cycle = some c ∧ c.kind.session? = some h) → ∃ c, t.bp.cycle = some c ∧ c.kind.session? = some h) := by
  cases h with
  | answer | refuseHead | tackExpiry | presenceRise | completeWaits | defer =>
    exact .inr (by simp [State.setQueue])
  | entryLost => exact .inr (by simp)
  | purge => rw [State.purge_eq]; exact .inr ⟨rfl, fun _ hc => cycle_session_of_discardIf hc⟩
  | abandon | identified | unidentified | endAccess => exact .inl rfl
  | _ => exact .inr ⟨rfl, fun _ hc => hc⟩

theorem Part.guardLaw (h : Part p s q t) (hi : GuardLaw s) : GuardLaw t := by
  rcases h.guard_cases with hg | ⟨hg, hc⟩
  · exact .of_no_guard hg
  · exact h.tableStep.guardLaw hg hc hi

/-- The start check finds a live lease of the entry's session (R131). -/
theorem State.startCheck_ok {e : AccessEntry} {l : Lease} (h : s.startCheck e = .ok l) :
    s.panel.service = .online ∧ (s.slots[e.slot]).state.isReady = true ∧ l ∈ s.lm.leases ∧ l.handle = e.handle ∧
    l.token = e.token ∧ l.holder = e.session := by
  unfold State.startCheck at h
  split at h
  next => cases h
  next hs =>
    split at h
    next => cases h
    next hr =>
      split at h
      next => cases h
      next k hk =>
        cases h
        have hkey := List.find?_some hk
        simp only [Bool.and_eq_true, decide_eq_true_eq] at hkey
        obtain ⟨⟨hh, ht⟩, hs'⟩ := hkey
        refine ⟨?_, by simpa using hr, List.mem_of_find?_eq_some hk, hh, ht, hs'⟩
        cases hp : s.panel.service with
        | online => rfl
        | service => exact absurd hp hs

/-- A guard copied from a live lease agrees with the leases: any other one is compatible with that lease (R132). -/
theorem GuardLaw.of_copy {l : Lease} {c : Cycle} (hls : LeasesCompatible s) (hl : l ∈ s.lm.leases)
    (hleases : t.lm.leases = s.lm.leases) (hg : t.bp.guardHold = some l.hold) (hc : t.bp.cycle = some c)
    (hk : c.kind.session? = some l.holder) : GuardLaw t := by
  obtain ⟨as, bs, hsplit⟩ := List.append_of_mem hl
  unfold LeasesCompatible at hls
  rw [hsplit, List.pairwise_append, List.pairwise_cons] at hls
  obtain ⟨-, ⟨hafter, -⟩, hbefore⟩ := hls
  have hothers : ∀ k ∈ as ++ bs, l.hold.compatible k.hold = true := by
    intro k hk
    rcases List.mem_append.1 hk with hk | hk
    · rw [Hold.compatible_comm]
      exact hbefore k hk l (List.mem_cons_self ..)
    · exact hafter k hk
  refine ⟨fun g hg' k hk' => ?_, fun g hg' hmode => ?_⟩ <;> obtain rfl : l.hold = g := Option.some.inj (hg ▸ hg')
  · rw [hleases, hsplit] at hk'
    have hcases : k = l ∨ k ∈ as ++ bs := by
      simp only [List.mem_append, List.mem_cons] at hk' ⊢
      tauto
    rcases hcases with rfl | hk'
    · exact .inr ⟨rfl, c, hc, hk⟩
    · exact .inl (hothers k hk')
  · have hne : ∀ k ∈ as ++ bs, k.hold ≠ l.hold := by
      intro k hk' heq
      have := hothers k hk'
      rw [heq, Hold.compatible_self hmode] at this
      cases this
    have hzero (ks : List Lease) (hks : ∀ k ∈ ks, k ∈ as ++ bs) : ks.countP (fun k => decide (k.hold = l.hold)) = 0 := by
      rw [List.countP_eq_zero]
      intro k hk'
      simpa using hne k (hks k hk')
    rw [hleases, hsplit, List.countP_append, List.countP_cons, hzero as (by simp +contextual), hzero bs (by simp +contextual)]
    simp

theorem Ending.leasesCompatible (h : Ending p s t) (hi : LeasesCompatible s) : LeasesCompatible t := by
  unfold LeasesCompatible at hi ⊢
  rcases h.lm_cases with hlm | ⟨hl, -⟩
  · rwa [hlm]
  · rw [hl]; exact List.Pairwise.nil

theorem Ending.guardLaw (h : Ending p s t) (hls : LeasesCompatible s) (hi : GuardLaw s) : GuardLaw t := by
  cases h with
  | identify _ hc => exact hi.of_sublist (List.Sublist.refl _) rfl (by simp [hc])
  | access hp hc hi' hq hl =>
    obtain ⟨-, -, hmem, -, -, hholder⟩ := State.startCheck_ok hl
    exact .of_copy hls hmem rfl rfl rfl (congrArg some hholder.symm)
  | linkClear | lineLow | powerOn => exact .of_no_leases rfl
  | _ => exact hi

/-- Settles O45: a grant fits beside every lease and beside the guard, and a guard is the copy of a live lease. -/
theorem stepKeepsLeasesCompatible : Obligations.StepKeepsLeasesCompatible := by
  intro s t hls hi h
  exact step_keeps (I := fun _ u => LeasesCompatible u ∧ GuardLaw u) (J := fun u => LeasesCompatible u ∧ GuardLaw u)
    (fun hp ⟨hls, hi⟩ => ⟨hp.tableStep.leasesCompatible hls, hp.guardLaw hi⟩)
    (fun he ⟨hls, hi⟩ => ⟨he.leasesCompatible hls, he.guardLaw hls hi⟩) h ⟨hls, hi⟩

/-! ### Valid resources -/

/-- A resource stays valid while its slot's channel count stays. -/
theorem Resource.valid_congr {r : Resource} {slots slots' : Vector SlotRecord 16}
    (h : (slots'[r.slot]).state.channels? = (slots[r.slot]).state.channels?) : r.valid slots' = r.valid slots := by
  simp only [Resource.valid, h]

/-- A valid resource names a READY slot. -/
theorem Resource.ready_of_valid {r : Resource} {slots : Vector SlotRecord 16} (h : r.valid slots = true) :
    (slots[r.slot]).state.isReady = true := by
  cases hr : (slots[r.slot]).state.isReady with
  | true => rfl
  | false =>
    rw [Resource.valid_of_not_ready hr] at h
    cases h

/-- What a part can do to the slots: a READY slot keeps its channels, unless it is emptied without leases and waits. -/
theorem Part.ready_kept (h : Part p s q t) (slot : SlotNo) (hr : (s.slots[slot]).state.isReady = true) :
    (t.slots[slot]).state = (s.slots[slot]).state ∨
    ((∀ l ∈ s.lm.leases, l.resource.slot ≠ slot) ∧ ∀ w ∈ s.lm.waits, w.resource.slot ≠ slot) := by
  have hset (i : SlotNo) (f : SlotRecord → SlotRecord)
      (hf : i = slot → (f s.slots[slot]).state = (s.slots[slot]).state) :
      ((s.setSlot i f).slots[slot]).state = (s.slots[slot]).state := by
    by_cases hi : i = slot
    · subst hi
      rw [State.setSlot_same]
      exact hf rfl
    · rw [State.setSlot_other s i slot f hi]
  have hnot (i : SlotNo) (f : SlotRecord → SlotRecord) (hi : (s.slots[i]).state.isReady = false) :
      ((s.setSlot i f).slots[slot]).state = (s.slots[slot]).state :=
    hset i f fun h => by rw [h, hr] at hi; cases hi
  cases h with
  | answer | refuseHead | tackExpiry | endAccess | completeWaits | defer => exact .inl (by simp [State.setQueue])
  | entryLost => exact .inl (by simp)
  | purge => rw [State.purge_eq]; exact .inl rfl
  | presenceRise i =>
    refine .inl ?_
    unfold State.presenceRise
    split
    · rfl
    · refine hset i _ fun hi => ?_
      subst hi
      cases hst : (s.slots[i]).state <;> simp_all [SlotState.isReady]
  | attention i => exact .inl (hset i _ fun _ => rfl)
  | settle hs => exact .inl (hnot _ (fun r => { r with state := .identifying }) (by rw [hs]; rfl))
  | emptySlot i hs hl =>
    by_cases hi : i = slot
    · subst hi
      exact .inr (hl hr)
    · exact .inl (congrArg SlotRecord.state (State.setSlot_other s i slot _ hi))
  | withdraw i hs | abandon i hs =>
    exact .inl (hnot i (fun r => { r with presence := false, state := .empty }) (by rw [hs]; rfl))
  | identified i o _ _ hs =>
    exact .inl (hnot i (fun r => { r with state := outcomeState o }) (by rw [hs]; rfl))
  | _ => exact .inl rfl

/-- What a part can do to the Wait Pool: records go, or one with a valid resource joins. -/
theorem Part.waits_valid (h : Part p s q t) : ∀ w ∈ t.lm.waits, w ∈ s.lm.waits ∨ w.resource.valid t.slots = true := by
  cases h with
  | answer | refuseHead | tackExpiry | presenceRise | endAccess =>
    exact fun w hw => .inl (by simpa [State.setQueue] using hw)
  | entryLost => exact fun w hw => .inl (by simpa using hw)
  | purge => rw [State.purge_eq]; exact fun w hw => .inl (List.mem_of_mem_filter hw)
  | grantWait _ hw => exact fun w hw' => .inl ((sublist_without hw).subset hw')
  | defer h a r _ _ _ hv =>
    intro w hw
    simp only [State.mapSession_frame, State.deferred_frame] at hw ⊢
    rcases mem_insertWait.1 hw with rfl | hw
    · exact .inr hv
    · exact .inl hw
  | cancel => exact fun w hw => .inl (List.mem_of_mem_filter hw)
  | completeWaits o ws => exact fun w hw => .inl ((State.completeWaits_lm o ws s).1.subset hw)
  | _ => exact fun w hw => .inl hw

theorem Part.resourcesValid (h : Part p s q t) (hi : ResourcesValid s) : ResourcesValid t := by
  have hkeptLease (l : Lease) (hl : l ∈ s.lm.leases) : l.resource.valid t.slots = true := by
    have hv := hi.leases l hl
    rcases h.ready_kept l.resource.slot (Resource.ready_of_valid hv) with hsame | ⟨hnone, -⟩
    · rwa [Resource.valid_congr (congrArg SlotState.channels? hsame)]
    · exact absurd rfl (hnone l hl)
  have hkeptWait (w : Wait) (hw : w ∈ s.lm.waits) : w.resource.valid t.slots = true := by
    have hv := hi.waits w hw
    rcases h.ready_kept w.resource.slot (Resource.ready_of_valid hv) with hsame | ⟨-, hnone⟩
    · rwa [Resource.valid_congr (congrArg SlotState.channels? hsame)]
    · exact absurd rfl (hnone w hw)
  refine ⟨fun l hl => ?_, fun w hw => (h.waits_valid w hw).elim (hkeptWait w) id⟩
  cases h.tableStep with
  | rewrite f hf hl' =>
    obtain ⟨k, hk, rfl⟩ := List.mem_map.1 (hl' ▸ hl)
    rw [(hf k).resource]
    exact hkeptLease k hk
  | fewer _ hl' => exact hkeptLease l (hl'.subset hl)
  | grant k _ hl' _ hgrant _ _ hslots =>
    rcases List.mem_append.1 (hl' ▸ hl) with hl | hl
    · exact hkeptLease l hl
    · rw [List.mem_singleton.1 hl, hslots]
      rcases hgrant.valid with hv | ⟨w, hw, hr⟩
      · exact hv
      · rw [← hr]
        exact hi.waits w hw

theorem Ending.resourcesValid (h : Ending p s t) (hi : ResourcesValid s) : ResourcesValid t := by
  cases h with
  | linkClear | lineLow | powerOn =>
    exact ⟨fun _ h => absurd h List.not_mem_nil, fun _ h => absurd h List.not_mem_nil⟩
  | _ => exact ⟨hi.leases, hi.waits⟩

/-- Settles O48: a slot that leaves READY has been vacated, and what joins has passed the resource check. -/
theorem stepKeepsResourcesValid : Obligations.StepKeepsResourcesValid := fun _ _ hi h =>
  step_keeps (I := fun _ => ResourcesValid) Part.resourcesValid Ending.resourcesValid h hi

end Sys2Proof.Machine
end

section
/-! PROOFS. The laws of the link and of arrival numbers: silence (R171, R173), transmission (R155, R159, R167), arrivals and
recall groups (R49, R70). -/

namespace Sys2Proof.Machine

variable {p q : Progress} {s t : State}

/-! ### What the parts do to the link -/

/-- The end of waits changes the tables and the session records alone, and those by mapping them. -/
theorem State.completeWaits_sessions (o : Completion) (ws : List Wait) (s : State) :
    ∃ f : Session → Session, (∀ x, (f x).host = x.host) ∧ (s.completeWaits o ws).sessions = s.sessions.map f := by
  induction ws generalizing s with
  | nil => exact ⟨id, fun _ => rfl, (List.map_id _).symm⟩
  | cons w ws ih =>
    obtain ⟨f, hf, he⟩ := ih (s.completeWait o w)
    refine ⟨fun x => f (if x.host = w.session then { x with out := x.out.handCompletion w.tag o } else x), fun x => ?_, ?_⟩
    · rw [hf]
      split <;> rfl
    · refine he.trans ?_
      rw [show (s.completeWait o w).sessions = s.sessions.map
        (fun x => if x.host = w.session then { x with out := x.out.handCompletion w.tag o } else x) from rfl, List.map_map]
      rfl

/-- An answer forms one response at most, of the first group. -/
theorem State.answerWith_responses (h : Addr) (st : Status) (pl : List Byte) (c : Bool) (s : State) :
    ((s.answerWith h st pl c).link.responses = s.link.responses ∧ s.session? h = none) ∨
    ∃ x, s.session? h = some x ∧ (s.answerWith h st pl c).link.responses = s.link.responses ++
      [{ host := h, seq := x.lastSeq, status := st, payload := pl, taken := true, owner := .session, clears := c }] := by
  cases hx : s.session? h with
  | none => exact .inl ⟨by simp only [State.answerWith, hx], rfl⟩
  | some x => exact .inr ⟨x, rfl, (s.answerWith_session hx st pl c).2⟩

/-- Without a session there is no one to answer. -/
theorem State.answerWith_of_none {h : Addr} (hx : s.session? h = none) (st : Status) (pl : List Byte) (c : Bool) :
    s.answerWith h st pl c = s := by
  simp only [State.answerWith, hx]

theorem State.session?_of_nil {h : Addr} (hs : s.sessions = []) : s.session? h = none := by
  simp [State.session?, hs]

/-- May the transmitter start, or the link take a frame: it is idle, the line is released. -/
theorem State.receives_iff : s.receives = true ↔ s.link.resetLine = .released ∧ s.link.tx = none := by
  simp [State.receives]

theorem State.maySend_iff : s.maySend = true ↔
    s.link.tx = none ∧ s.link.resetLine = .released ∧ s.link.receive = .idle ∧ s.panel.nodeAddress ≠ 0 := by
  simp only [State.maySend, Bool.and_eq_true, State.receives_iff, decide_eq_true_eq]
  tauto

/-! ### Silence -/

/-- No session is open, no response waits or is in transmission. -/
structure Silenced (s : State) : Prop where
  sessions : s.sessions = []
  responses : s.link.responses = []
  tx : s.link.tx = none

theorem Silenced.answerWith (hs : Silenced s) (h : Addr) (st : Status) (pl : List Byte) (c : Bool) :
    Silenced (s.answerWith h st pl c) := by
  rw [State.answerWith_of_none (State.session?_of_nil hs.sessions)]
  exact hs

theorem Silenced.mapSession (hs : Silenced s) (h : Addr) (f : Session → Session) : Silenced (s.mapSession h f) :=
  ⟨by simp [State.mapSession, hs.sessions], hs.responses, hs.tx⟩

/-- A part that neither hears nor may send stays silent. -/
theorem Part.silenced (h : Part p s q t) (hs : Silenced s) (hdeaf : ¬ s.hears) : Silenced t := by
  have hnosend : s.maySend ≠ true := fun hm => by
    obtain ⟨htx, hline, -, hnode⟩ := State.maySend_iff.1 hm
    exact hdeaf ⟨State.receives_iff.2 ⟨hline, htx⟩, hnode⟩
  have hnotx {x : Transmission} (ht : s.link.tx = some x) : Silenced t := by
    rw [hs.tx] at ht
    cases ht
  cases h with
  | respond _ hh | openSession _ _ _ _ hh => exact absurd hh hdeaf
  | startResponse hm | startEntry hm => exact absurd hm hnosend
  | responseEnded ht | responseDropped ht | responseReturned ht | entryEnded ht | entryLost ht => exact hnotx ht
  | quiet | accept | handNotice | unbook | acknowledge =>
    exact ⟨by simp [State.mapSession, State.handNotice, State.mapQueue, State.acknowledge, hs.sessions], hs.responses, hs.tx⟩
  | answer => exact hs.answerWith _ _ _ _
  | @refuseHead e rest =>
    have hs' : Silenced (s.setQueue rest) := ⟨hs.sessions, hs.responses, hs.tx⟩
    exact hs'.answerWith _ _ _ _
  | @endAccess c h slot ch op reg discard pl =>
    cases discard with
    | true => exact ⟨hs.sessions, hs.responses, hs.tx⟩
    | false =>
      obtain ⟨h1, h2, h3⟩ := hs.answerWith h .done pl false
      exact ⟨h1, h2, h3⟩
  | purge => rw [State.purge_eq]; exact ⟨by simp [State.shed, State.setWaits, State.keepLeases, hs.sessions],
      by simp [State.shed, State.setWaits, State.keepLeases, Link.close, hs.responses],
      by simp [State.shed, State.setWaits, State.keepLeases, Link.close, hs.tx]⟩
  | grantWait => exact ⟨by simp [State.setWaits, State.grantWait, State.handCompletion, State.mapQueue,
      State.mapSession, hs.sessions], hs.responses, hs.tx⟩
  | defer => exact ⟨by simp [State.mapSession, hs.sessions], by simp [hs.responses], by simp [hs.tx]⟩
  | cancel => exact ⟨by simp [State.mapSession, hs.sessions], hs.responses, hs.tx⟩
  | completeWaits o ws =>
    obtain ⟨f, -, he⟩ := State.completeWaits_sessions o ws s
    exact ⟨by simp [he, hs.sessions], by simp [hs.responses], by simp [hs.tx]⟩
  | tackExpiry =>
    refine ⟨?_, by simp [hs.responses], by simp [hs.tx]⟩
    unfold State.tackExpiry
    split
    · simp [State.mapSession, hs.sessions]
    · exact hs.sessions
  | presenceRise => exact ⟨by simp [hs.sessions], by simp [hs.responses], by simp [hs.tx]⟩
  | _ => exact ⟨hs.sessions, hs.responses, hs.tx⟩

/-- No part changes the sampled addresses. -/
theorem Part.addresses (h : Part p s q t) :
    t.panel.nodeAddress = s.panel.nodeAddress ∧ t.panel.managerAddress = s.panel.managerAddress := by
  cases h with
  | answer | refuseHead | tackExpiry | presenceRise | endAccess | completeWaits | defer => simp [State.setQueue]
  | entryLost => simp
  | purge => rw [State.purge_eq]; exact ⟨rfl, rfl⟩
  | _ => exact ⟨rfl, rfl⟩

/-- What a part can do to the reset line and the receive state: a line that is asserted after it was so before, and
reception begins only where the link can take a frame. -/
theorem Part.line (h : Part p s q t) (ha : t.link.resetLine = .asserted) : s.link.resetLine = .asserted ∧
    (t.link.receive = s.link.receive ∨ t.link.receive = .idle) := by
  cases h with
  | answer | refuseHead | tackExpiry | presenceRise | completeWaits | defer =>
    simp_all [State.setQueue, State.answer]
  | @endAccess c h slot ch op reg discard pl =>
    cases discard <;> simp_all [State.freeBackplane, State.answer]
  | entryLost => exact ⟨by simpa [State.endTx] using ha, .inl (by simp [State.endTx])⟩
  | purge => rw [State.purge_eq] at ha ⊢; exact ⟨ha, .inl rfl⟩
  | delimiter hr =>
    rw [(State.receives_iff.1 hr).1] at ha
    cases ha
  | lineHigh => cases ha
  | endReception => exact ⟨ha, .inr rfl⟩
  | _ => exact ⟨ha, .inl rfl⟩

theorem Part.silentLaw (h : Part p s q t) (hi : SilentLaw s) : SilentLaw t := by
  refine ⟨fun hnode => ?_, fun hline => ?_⟩
  · have hnode' : s.panel.nodeAddress = 0 := h.addresses.1 ▸ hnode
    obtain ⟨h1, h2, h3⟩ := hi.unaddressed hnode'
    obtain ⟨h1, h2, h3⟩ := h.silenced ⟨h1, h2, h3⟩ (fun hh => hh.2 hnode')
    exact ⟨h1, h2, h3⟩
  · obtain ⟨hline', hreceive⟩ := h.line hline
    obtain ⟨h1, h2, h3, h4⟩ := hi.asserted hline'
    have hdeaf : ¬ s.hears := fun hh => by
      rw [(State.receives_iff.1 hh.1).1] at hline'
      cases hline'
    obtain ⟨h1, h2, h3⟩ := h.silenced ⟨h1, h2, h3⟩ hdeaf
    refine ⟨h1, h2, h3, ?_⟩
    rcases hreceive with hr | hr
    · rw [hr, h4]
    · exact hr

theorem Ending.silentLaw (h : Ending p s t) (hi : SilentLaw s) : SilentLaw t := by
  cases h with
  | linkClear | lineLow | powerOn => exact ⟨fun _ => ⟨rfl, rfl, rfl⟩, fun _ => ⟨rfl, rfl, rfl, rfl⟩⟩
  | _ => exact ⟨hi.unaddressed, hi.asserted⟩

/-- Settles O54: a part that is unaddressed or reset hears nothing, and so does nothing that ends its silence. -/
theorem stepKeepsSilentLaw : Obligations.StepKeepsSilentLaw := fun _ _ hi h =>
  step_keeps (I := fun _ => SilentLaw) Part.silentLaw Ending.silentLaw h hi

/-! ### Transmission -/

/-- At most one response of the second group waits for each host (R159). -/
abbrev OneSecond (rs : List Response) : Prop :=
  rs.Pairwise (fun a b => a.taken = false → b.taken = false → a.host ≠ b.host)

/-- A response of the first group joins. -/
theorem OneSecond.append {rs : List Response} (h : OneSecond rs) {r : Response} (hr : r.taken = true) :
    OneSecond (rs ++ [r]) := by
  refine List.pairwise_append.2 ⟨h, List.pairwise_singleton _ _, fun a _ b hb _ hb' => ?_⟩
  rw [List.mem_singleton.1 hb, hr] at hb'
  cases hb'

/-- A response joins as R159 says. -/
theorem OneSecond.push {rs : List Response} (h : OneSecond rs) (r : Response) :
    OneSecond (if r.taken then rs ++ [r]
      else rs.filter (fun q => decide (q.taken = true) || decide (q.host ≠ r.host)) ++ [r]) := by
  split
  next hr => exact h.append hr
  next hr =>
    refine List.pairwise_append.2 ⟨h.sublist List.filter_sublist, List.pairwise_singleton _ _, fun a ha b hb ha' _ => ?_⟩
    rw [List.mem_singleton.1 hb]
    simpa [ha'] using (List.mem_filter.1 ha).2

/-- The transmission law rests on the transmitter, the receive state, the attempt and the responses that wait. -/
theorem TransmissionLaw.congr (hi : TransmissionLaw s) (htx : t.link.tx = s.link.tx)
    (hr : t.link.receive = s.link.receive ∨ t.link.receive = .idle) (ha : t.delivery.attempt = s.delivery.attempt)
    (hrs : OneSecond t.link.responses) : TransmissionLaw t := by
  refine ⟨fun h => ?_, by rw [ha, htx]; exact hi.sent, by rw [ha, htx]; exact hi.attempted, hrs⟩
  rw [htx] at h
  rcases hr with hr | hr
  · exact hr.trans (hi.deaf h)
  · exact hr

theorem TransmissionLaw.answerWith (hi : TransmissionLaw s) (h : Addr) (st : Status) (pl : List Byte) (c : Bool) :
    TransmissionLaw (s.answerWith h st pl c) := by
  refine hi.congr (by simp) (.inl (by simp)) (by simp) ?_
  rcases s.answerWith_responses h st pl c with ⟨he, -⟩ | ⟨x, -, he⟩
  · rw [he]; exact hi.single
  · rw [he]; exact OneSecond.append hi.single rfl

/-- While a response is sent or nothing is, every attempt awaits its ACK. -/
theorem TransmissionLaw.awaits (hi : TransmissionLaw s)
    (htx : ∀ x, s.link.tx = some x → ∀ h n, x.item ≠ .entry h n true) {a : Attempt}
    (ha : s.delivery.attempt = some a) : a.deadline ≠ none := by
  intro hd
  obtain ⟨wire, hw⟩ := hi.sent a ha hd
  exact htx _ hw _ _ rfl

/-- With an idle transmitter the law speaks of the attempt and the waiting responses alone. -/
theorem TransmissionLaw.of_idle (htx : t.link.tx = none) (ha : ∀ a, t.delivery.attempt = some a → a.deadline ≠ none)
    (hrs : OneSecond t.link.responses) : TransmissionLaw t :=
  ⟨fun h => absurd htx h, fun a h hd => absurd hd (ha a h), by simp [htx], hrs⟩

theorem Part.transmissionLaw (h : Part p s q t) (hi : TransmissionLaw s) : TransmissionLaw t := by
  cases h with
  | delimiter hr =>
    have htx := (State.receives_iff.1 hr).2
    exact ⟨fun h => absurd htx h, hi.sent, hi.attempted, hi.single⟩
  | endReception => exact hi.congr rfl (.inr rfl) rfl hi.single
  | answer => exact hi.answerWith _ _ _ _
  | @refuseHead e rest =>
    exact TransmissionLaw.answerWith (s := s.setQueue rest) (hi.congr rfl (.inl rfl) rfl hi.single) _ _ _ _
  | @endAccess c h slot ch op reg discard pl =>
    cases discard with
    | true => exact hi.congr rfl (.inl rfl) rfl hi.single
    | false =>
      have ha := hi.answerWith h .done pl false
      exact ha.congr rfl (.inl rfl) rfl ha.single
  | respond => exact hi.congr rfl (.inl rfl) rfl (OneSecond.push hi.single _)
  | openSession => exact hi.congr rfl (.inl rfl) rfl (OneSecond.append hi.single rfl)
  | purge h =>
    rw [State.purge_eq]
    refine ⟨fun htx => ?_, fun a ha hd => ?_, fun k n wire htx => ?_, hi.single.sublist List.filter_sublist⟩
    · exact hi.deaf fun hn => htx (by simp [State.shed, State.setWaits, State.keepLeases, Link.close, hn])
    · simp only [State.shed, State.setWaits, State.keepLeases, Delivery.close, Link.close] at ha ⊢
      split at ha
      next b hb =>
        split at ha
        next => cases ha
        next hne =>
          cases ha
          obtain ⟨wire, hw⟩ := hi.sent a hb hd
          exact ⟨wire, by simp [hw, TxItem.close, hne]⟩
      next => cases ha
    · simp only [State.shed, State.setWaits, State.keepLeases, Delivery.close, Link.close] at htx ⊢
      obtain ⟨x, hx, hclose⟩ := Option.map_eq_some_iff.1 htx
      obtain ⟨item, w⟩ := x
      cases item with
      | response r => simp [TxItem.close] at hclose
      | entry k' n' o =>
        simp only [TxItem.close, Transmission.mk.injEq, TxItem.entry.injEq, Bool.and_eq_true, decide_eq_true_eq] at hclose
        obtain ⟨⟨rfl, rfl, rfl, hne⟩, rfl⟩ := hclose
        obtain ⟨a, ha, hah, han, had⟩ := hi.attempted _ _ _ hx
        refine ⟨a, ?_, hah, han, had⟩
        have : a.host ≠ h := by rw [hah]; exact hne
        simp [ha, this]
  | acknowledge _ _ _ htx => exact .of_idle htx (by simp [State.acknowledge]) hi.single
  | startResponse hm hr =>
    obtain ⟨htx, -, hidle, -⟩ := State.maySend_iff.1 hm
    refine ⟨fun _ => hidle, fun a ha hd => ?_, by simp [State.startResponse], ?_⟩
    · exact absurd hd (hi.awaits (by simp [htx]) ha)
    · have := hi.single
      rw [hr] at this
      exact (List.pairwise_cons.1 this).2
  | startEntry hm ha =>
    obtain ⟨htx, -, hidle, -⟩ := State.maySend_iff.1 hm
    refine ⟨fun _ => hidle, fun a ha _ => ?_, fun h n wire htx => ?_, hi.single⟩
    · obtain rfl := Option.some.inj ha
      exact ⟨_, rfl⟩
    · simp only [State.startEntry, Option.some.injEq, Transmission.mk.injEq, TxItem.entry.injEq, and_true] at htx
      obtain ⟨⟨rfl, rfl⟩, -⟩ := htx
      exact ⟨_, rfl, rfl, rfl, rfl⟩
  | responseEnded ht hr | responseDropped ht hr =>
    refine .of_idle rfl (fun a ha => hi.awaits (fun x hx h n he => ?_) ha) hi.single
    rw [ht] at hx
    cases hx
    rw [hr] at he
    cases he
  | responseReturned ht hr hu =>
    refine .of_idle rfl (fun a ha => hi.awaits (fun x hx h n he => ?_) ha) ?_
    · rw [ht] at hx
      cases hx
      rw [hr] at he
      cases he
    · exact List.pairwise_cons.2 ⟨fun b hb hr' hb' heq => hu hr' b hb hb' heq.symm, hi.single⟩
  | @entryEnded x h n o ht he =>
    refine .of_idle rfl (fun a ha hd => ?_) hi.single
    simp only [State.entryEnded] at ha
    cases o with
    | true =>
      obtain ⟨b, -, rfl⟩ := Option.map_eq_some_iff.1 ha
      cases hd
    | false =>
      refine hi.awaits (fun y hy h n he' => ?_) ha hd
      rw [ht] at hy
      cases hy
      rw [he] at he'
      cases he'
  | @entryLost x h n o ht he =>
    obtain ⟨item, wire⟩ := x
    obtain rfl : item = .entry h n o := he
    refine .of_idle (by simp [State.endTx]) (fun a ha => ?_) (by simpa [State.endTx] using hi.single)
    cases o with
    | true =>
      obtain ⟨b, hb, -⟩ := hi.attempted _ _ _ ht
      rw [s.endTx.entryLost_attempt hb] at ha
      cases ha
    | false =>
      refine hi.awaits (fun y hy h n he' => ?_) ha
      rw [ht] at hy
      cases hy
      cases he'
  | tackExpiry =>
    unfold State.tackExpiry
    split
    next h n _ d ha =>
      refine ⟨hi.deaf, by simp, fun k m wire htx => ?_, hi.single⟩
      obtain ⟨a, ha', -, -, hd⟩ := hi.attempted k m wire htx
      rw [ha] at ha'
      cases ha'
      cases hd
    next => exact hi
  | presenceRise | completeWaits | defer =>
    exact hi.congr (by simp) (.inl (by simp)) (by simp) (by simpa using hi.single)
  | _ => exact hi.congr rfl (.inl rfl) rfl hi.single

theorem Ending.transmissionLaw (h : Ending p s t) (hi : TransmissionLaw s) : TransmissionLaw t := by
  cases h with
  | linkClear | lineLow | powerOn => exact .of_idle rfl (fun _ h => nomatch h) List.Pairwise.nil
  | _ => exact hi.congr rfl (.inl rfl) rfl hi.single

/-- Settles O56: a transmission starts while nothing is received, and starts and ends together with its attempt. -/
theorem stepKeepsTransmissionLaw : Obligations.StepKeepsTransmissionLaw := fun _ _ hi h =>
  step_keeps (I := fun _ => TransmissionLaw) Part.transmissionLaw Ending.transmissionLaw h hi

/-! ### Arrival numbers and recall groups -/

/-- The leases and waits that stay, with their numbers, keep the arrival law. -/
theorem ArrivalLaw.of_fewer (hi : ArrivalLaw s) (hc : t.lm.arrivalCounter = s.lm.arrivalCounter)
    (hw : t.lm.waits.Sublist s.lm.waits)
    (hl : ∀ l ∈ t.lm.leases, l.state = .held ∨ ∃ k ∈ s.lm.leases, k.state = l.state) : ArrivalLaw t := by
  have hold {l : Lease} (hl' : l ∈ t.lm.leases) {d g} (hs : l.state = .recalled d g) :
      ∃ k ∈ s.lm.leases, k.state = .recalled d g := by
    rcases hl l hl' with h | ⟨k, hk, h⟩
    · rw [hs] at h; cases h
    · exact ⟨k, hk, h.trans hs⟩
  refine ⟨fun w h => hc ▸ hi.known w (hw.subset h), hi.rising.sublist hw, hi.distinct.sublist (hw.map _),
    fun l h d g hs => ?_⟩
  obtain ⟨k, hk, hks⟩ := hold h hs
  obtain ⟨hg, hall⟩ := hi.groups k hk d g hks
  refine ⟨hc ▸ hg, fun l' h' d' hs' => ?_⟩
  obtain ⟨k', hk', hks'⟩ := hold h' hs'
  exact hall k' hk' d' hks'

theorem ArrivalLaw.of_lm (hi : ArrivalLaw s) (h : t.lm = s.lm) : ArrivalLaw t :=
  hi.of_fewer (by rw [h]) (by rw [h]) (by rw [h]; exact fun l hl => .inr ⟨l, hl, rfl⟩)

/-- Short of its last value, the arrival counter rises. -/
theorem arrival_lt_succ {c : Arrival} (hc : c ≠ BitVec.allOnes 64) {n : Arrival} (hn : n ≤ c) : n < c + 1 := by
  have hlt : c.toNat + 1 < 2 ^ 64 := by
    have hne : c.toNat ≠ 2 ^ 64 - 1 := fun h => hc (BitVec.eq_of_toNat_eq (by simpa using h))
    have := c.isLt
    omega
  rw [BitVec.le_def] at hn
  rw [BitVec.lt_def, BitVec.toNat_add_of_lt (by simpa using hlt)]
  exact Nat.lt_succ_of_le hn

/-- A record with a higher number than all others joins its kind at the end (R49). -/
theorem rising_insertWait {ws : List Wait} {w : Wait} (hsorted : UrgentSorted ws)
    (hr : ws.Pairwise (fun a b => a.urgent = b.urgent → a.arrival < b.arrival)) (hnew : ∀ v ∈ ws, v.arrival < w.arrival) :
    (insertWait w ws).Pairwise (fun a b => a.urgent = b.urgent → a.arrival < b.arrival) := by
  unfold insertWait
  split
  next hu =>
    have hsplit : ws.takeWhile Wait.urgent ++ ws.dropWhile Wait.urgent = ws := List.takeWhile_append_dropWhile
    rw [← hsplit, List.pairwise_append] at hr
    obtain ⟨hfront, hback, hacross⟩ := hr
    refine List.pairwise_append.2 ⟨hfront, List.pairwise_cons.2 ⟨fun v hv he => ?_, hback⟩, fun a ha b hb he => ?_⟩
    · rw [hu, hsorted.dropWhile_normal v hv] at he
      cases he
    · rcases List.mem_cons.1 hb with rfl | hb
      · exact hnew a ((List.takeWhile_sublist _).subset ha)
      · exact hacross a ha b hb he
  next =>
    refine List.pairwise_append.2 ⟨hr, List.pairwise_singleton _ _, fun a ha b hb _ => ?_⟩
    rw [List.mem_singleton.1 hb]
    exact hnew a ha

theorem insertWait_perm (w : Wait) (ws : List Wait) : (insertWait w ws).Perm (w :: ws) := by
  unfold insertWait
  split
  · have hsplit : ws.takeWhile Wait.urgent ++ ws.dropWhile Wait.urgent = ws := List.takeWhile_append_dropWhile
    conv_rhs => rw [← hsplit]
    exact List.perm_middle
  · exact List.perm_append_singleton w ws

/-- A new wait record takes a number above all others; a recall that it makes is the only one of its group. -/
theorem ArrivalLaw.defer {a : AcquireFields} {w : Wait} (hi : ArrivalLaw s) (hu : UrgentFirst s)
    (hc : s.lm.arrivalCounter ≠ BitVec.allOnes 64) (hw : w.arrival = s.lm.arrivalCounter + 1) :
    ArrivalLaw (if a.urgent then (s.addWait w).markConflicts w else s.addWait w) := by
  have hnew : ∀ {n : Arrival}, n ≤ s.lm.arrivalCounter → n < w.arrival := fun hn => hw ▸ arrival_lt_succ hc hn
  have hne : ∀ {n : Arrival}, n ≤ s.lm.arrivalCounter → n ≠ w.arrival := fun hn h => by
    have := hnew hn
    rw [h] at this
    exact absurd this (BitVec.lt_irrefl _)
  have hmarks : ∀ l ∈ (if a.urgent then (s.addWait w).markConflicts w else s.addWait w).lm.leases, ∀ d g,
      l.state = .recalled d g → (g = w.arrival ∧ d = s.now + s.panel.config.tGrace.toNat * Config.second) ∨
        ∃ k ∈ s.lm.leases, k.state = .recalled d g := by
    intro l hl d g hs
    split at hl
    · obtain ⟨k, hk, rfl⟩ := List.mem_map.1 hl
      split at hs
      · cases hs
        exact .inl ⟨rfl, rfl⟩
      · exact .inr ⟨k, hk, hs⟩
    · exact .inr ⟨l, hl, hs⟩
  refine ⟨fun v hv => ?_, ?_, ?_, fun l hl d g hs => ?_⟩
  · simp only [State.deferred_frame] at hv ⊢
    rcases mem_insertWait.1 hv with rfl | hv
    · exact BitVec.le_refl _
    · exact BitVec.le_of_lt (hnew (hi.known v hv))
  · simpa using rising_insertWait hu hi.rising fun v hv => hnew (hi.known v hv)
  · simp only [State.deferred_frame]
    rw [((insertWait_perm w s.lm.waits).map _).nodup_iff, List.map_cons, List.nodup_cons]
    refine ⟨fun h => ?_, hi.distinct⟩
    obtain ⟨v, hv, he⟩ := List.mem_map.1 h
    exact hne (hi.known v hv) he
  · simp only [State.deferred_frame]
    rcases hmarks l hl d g hs with ⟨rfl, rfl⟩ | ⟨k, hk, hks⟩
    · refine ⟨BitVec.le_refl _, fun l' hl' d' hs' => ?_⟩
      rcases hmarks l' hl' d' _ hs' with ⟨-, rfl⟩ | ⟨k', hk', hks'⟩
      · rfl
      · exact absurd rfl (hne (hi.groups k' hk' d' _ hks').1)
    · obtain ⟨hg, hall⟩ := hi.groups k hk d g hks
      refine ⟨BitVec.le_of_lt (hnew hg), fun l' hl' d' hs' => ?_⟩
      rcases hmarks l' hl' d' g hs' with ⟨rfl, -⟩ | ⟨k', hk', hks'⟩
      · exact absurd rfl (hne hg)
      · exact hall k' hk' d' hks'

/-- What holds of arrival numbers in the course of an event: one is taken at most, short of the counter's last value. -/
structure ArrivalPhase (p : Progress) (s : State) : Prop where
  law : ArrivalLaw s
  urgent : UrgentFirst s
  room : p.numbered = false → s.lm.arrivalCounter ≠ BitVec.allOnes 64

theorem Part.arrivalPhase (h : Part p s q t) (hi : ArrivalPhase p s) : ArrivalPhase q t := by
  obtain ⟨hlaw, hurgent, hroom⟩ := hi
  have hsame (hlm : t.lm = s.lm) (hn : q.numbered = p.numbered) : ArrivalPhase q t :=
    ⟨hlaw.of_lm hlm, h.urgentFirst hurgent, by rw [hlm, hn]; exact hroom⟩
  have hfewer (hc : t.lm.arrivalCounter = s.lm.arrivalCounter) (hw : t.lm.waits.Sublist s.lm.waits)
      (hl : ∀ l ∈ t.lm.leases, l.state = .held ∨ ∃ k ∈ s.lm.leases, k.state = l.state)
      (hn : q.numbered = p.numbered) : ArrivalPhase q t :=
    ⟨hlaw.of_fewer hc hw hl, h.urgentFirst hurgent, by rw [hc, hn]; exact hroom⟩
  cases h with
  | note granted numbered due =>
    refine ⟨hlaw, hurgent, fun hn => hroom ?_⟩
    simp only [Bool.or_eq_false_iff] at hn
    exact hn.1
  | answer | refuseHead | tackExpiry | presenceRise | endAccess => exact hsame (by simp [State.setQueue]) rfl
  | entryLost => exact hsame (by simp) rfl
  | purge =>
    refine hfewer ?_ ?_ ?_ rfl <;> rw [State.purge_eq]
    · rfl
    · exact List.filter_sublist
    · exact fun l hl => .inr ⟨l, List.mem_of_mem_filter hl, rfl⟩
  | retire => exact hfewer rfl (.refl _) (fun l hl => .inr ⟨l, List.mem_of_mem_filter hl, rfl⟩) rfl
  | renew =>
    refine hfewer rfl (.refl _) (fun l hl => ?_) rfl
    obtain ⟨k, hk, rfl⟩ := List.mem_map.1 hl
    exact .inr ⟨k, hk, by split <;> rfl⟩
  | grant =>
    refine hfewer rfl (.refl _) (fun l hl => ?_) rfl
    rcases List.mem_append.1 hl with hl | hl
    · exact .inr ⟨l, hl, rfl⟩
    · rw [List.mem_singleton.1 hl]
      exact .inl rfl
  | grantWait _ hw =>
    refine hfewer rfl (sublist_without hw) (fun l hl => ?_) rfl
    rcases List.mem_append.1 hl with hl | hl
    · exact .inr ⟨l, hl, rfl⟩
    · rw [List.mem_singleton.1 hl]
      exact .inl rfl
  | defer h a r hn =>
    have hd := hlaw.defer (a := a) (w := s.newWait h a r) hurgent (hroom hn) rfl
    exact ⟨hd.of_lm rfl, by simpa [UrgentFirst] using UrgentSorted.insertWait hurgent _, fun h => nomatch h⟩
  | cancel => exact hfewer rfl List.filter_sublist (fun l hl => .inr ⟨l, hl, rfl⟩) rfl
  | completeWaits o ws =>
    obtain ⟨hsub, heq⟩ := State.completeWaits_lm o ws s
    exact hfewer (by rw [heq]) hsub (by rw [State.completeWaits_leases]; exact fun l hl => .inr ⟨l, hl, rfl⟩) rfl
  | _ => exact hsame rfl rfl

theorem Ending.arrivalLaw (h : Ending p s t) (hi : ArrivalLaw s) : ArrivalLaw t := by
  rcases h.lm_cases with hlm | ⟨hl, hw, -⟩
  · exact hi.of_lm hlm
  · exact ⟨by simp [hw], by simp [hw], by simp [hw], by simp [hl]⟩

/-- Settles O55: one number is taken in an event at most, and it is above all others. -/
theorem stepKeepsArrivalLaw : Obligations.StepKeepsArrivalLaw := fun _ _ hc hu hi h =>
  step_keeps (I := ArrivalPhase) Part.arrivalPhase (fun he hi => he.arrivalLaw hi.law) h ⟨hi, hu, fun _ => hc⟩

end Sys2Proof.Machine
end

section
/-! PROOFS. The laws of the backplane and of the Slot Directory (R5, R8, R11, R128 to R132). -/

namespace Sys2Proof.Machine

variable {p q : Progress} {s t : State}

/-! ### The pending identification set -/

theorem mem_insertSlot {slot i : SlotNo} {ids : List SlotNo} : i ∈ insertSlot slot ids ↔ i = slot ∨ i ∈ ids := by
  induction ids with
  | nil => simp [insertSlot]
  | cons x xs ih =>
    unfold insertSlot
    split_ifs with hlt heq
    · simp
    · subst heq; simp
    · simp only [List.mem_cons, ih]
      tauto

/-- The set stays ascending (R129). -/
theorem ascending_insertSlot {slot : SlotNo} {ids : List SlotNo} (h : ids.Pairwise (fun a b => a < b)) :
    (insertSlot slot ids).Pairwise (fun a b => a < b) := by
  induction ids with
  | nil => exact List.pairwise_singleton _ _
  | cons x xs ih =>
    obtain ⟨hx, hxs⟩ := List.pairwise_cons.1 h
    unfold insertSlot
    split_ifs with hlt heq
    · refine List.pairwise_cons.2 ⟨fun i hi => ?_, h⟩
      rcases List.mem_cons.1 hi with rfl | hi
      · exact hlt
      · exact hlt.trans (hx i hi)
    · exact h
    · refine List.pairwise_cons.2 ⟨fun i hi => ?_, ih hxs⟩
      rcases mem_insertSlot.1 hi with rfl | hi
      · exact lt_of_le_of_ne (not_lt.1 hlt) (Ne.symm heq)
      · exact hx i hi

/-! ### Cycles, slots and identification -/

/-- The slot is under identification. -/
def State.identifies (s : State) (slot : SlotNo) : Prop :=
  ∃ d, s.bp.cycle = some { kind := .identify slot, silence := d }

/-- Setting discard marks leaves an identification as it is. -/
theorem discardIf_identify {c : Option Cycle} {f : Addr → Bool} {slot : SlotNo} {d : Instant} :
    c.map (fun c => { c with kind := c.kind.discardIf f }) = some { kind := .identify slot, silence := d } ↔
      c = some { kind := .identify slot, silence := d } := by
  rcases c with _ | ⟨k | _, d'⟩ <;> simp [CycleKind.discardIf]

/-- Setting discard marks leaves an ACCESS an ACCESS. -/
theorem discardIf_isAccess (f : Addr → Bool) (c : Option Cycle) :
    ((c.map (fun c => { c with kind := c.kind.discardIf f })).map Cycle.isAccess).getD false =
      (c.map Cycle.isAccess).getD false := by
  rcases c with _ | ⟨k | _, d⟩ <;> rfl

/-- The identification law rests on the pending set, the slot under identification and the slots in IDENTIFYING. -/
theorem IdentificationLaw.congr (hi : IdentificationLaw s) (hids : t.bp.pendingIds = s.bp.pendingIds)
    (hc : ∀ slot d, t.bp.cycle = some { kind := .identify slot, silence := d } ↔
      s.bp.cycle = some { kind := .identify slot, silence := d })
    (hs : ∀ slot : SlotNo, (t.slots[slot]).state = .identifying ↔ (s.slots[slot]).state = .identifying) :
    IdentificationLaw t := by
  refine ⟨by rw [hids]; exact hi.ascending, fun slot d h => hids ▸ hi.once slot d ((hc slot d).1 h), fun slot => ?_⟩
  simp only [hs, hids, hc]
  exact hi.exact_ slot

/-- The state of a slot after one slot's record has been changed. -/
theorem State.setSlot_slots (i j : SlotNo) (f : SlotRecord → SlotRecord) (s : State) :
    (s.setSlot i f).slots[j] = if i = j then f s.slots[i] else s.slots[j] := by
  split
  next h => subst h; exact State.setSlot_same s i f
  next h => exact State.setSlot_other s i j f h

/-- What holds of one slot record (R5, R8, R11). -/
def SlotRecord.Lawful (r : SlotRecord) : Prop :=
  (r.state = .empty ↔ r.presence = false) ∧ ∀ n c, r.state = .ready n c → 1 ≤ n.toNat ∧ n.toNat ≤ 4

theorem SlotRecord.lawful_empty {b : Bool} : ({ state := .empty, presence := false, attention := b } : SlotRecord).Lawful :=
  ⟨iff_of_true rfl rfl, fun _ _ h => nomatch h⟩

theorem SlotLaw.of_setSlot {i : SlotNo} {f : SlotRecord → SlotRecord} (hi : SlotLaw s) (hf : (f s.slots[i]).Lawful)
    (ht : t.slots = (s.setSlot i f).slots) : SlotLaw t := by
  intro slot
  rw [ht, State.setSlot_slots]
  split
  · exact hf
  · exact hi slot

theorem SlotLaw.congr (hi : SlotLaw s) (ht : t.slots = s.slots) : SlotLaw t := by
  unfold SlotLaw
  rwa [ht]

/-- The outcome of an identification is a lawful state, and none of IDENTIFYING and EMPTY (R10, R11). -/
theorem outcomeState_cases (o : CycleOutcome) :
    outcomeState o = .faulted ∨ ∃ n c, outcomeState o = .ready n c ∧ 1 ≤ n.toNat ∧ n.toNat ≤ 4 := by
  cases o with
  | refused | silent => exact .inl rfl
  | accepted w =>
    simp only [outcomeState, descriptorState]
    split
    next h => exact .inr ⟨_, _, rfl, h⟩
    next => exact .inl rfl

/-- What holds of the backplane in the course of an event: claimants are served unless the arbiter's choice is due. -/
structure BackplanePhase (p : Progress) (s : State) : Prop where
  guarded : s.bp.guardHold.isSome = (s.bp.cycle.map Cycle.isAccess).getD false
  served : p.due = false → s.bp.cycle = none → s.bp.queue = [] ∧ s.bp.pendingIds = []
  identification : IdentificationLaw s
  slots : SlotLaw s

/-- A part that leaves the Sequencer and the slot states alone. -/
theorem BackplanePhase.congr (hi : BackplanePhase p s) (hb : t.bp = s.bp) (hs : t.slots = s.slots)
    (hd : q.due = false → p.due = false) : BackplanePhase q t :=
  ⟨hb ▸ hi.guarded, fun h => hb ▸ hi.served (hd h),
    hi.identification.congr (by rw [hb]) (by simp [hb]) (by simp [hs]), hi.slots.congr hs⟩

/-- A part that changes one slot's record, which is not IDENTIFYING before or after, and leaves the Sequencer alone. -/
theorem BackplanePhase.setSlot {i : SlotNo} {f : SlotRecord → SlotRecord} (hi : BackplanePhase p s)
    (hident : (f s.slots[i]).state = .identifying ↔ (s.slots[i]).state = .identifying) (hlaw : (f s.slots[i]).Lawful) :
    BackplanePhase p (s.setSlot i f) := by
  refine ⟨hi.guarded, hi.served, hi.identification.congr rfl (fun _ _ => Iff.rfl) fun slot => ?_,
    hi.slots.of_setSlot hlaw rfl⟩
  rw [State.setSlot_slots]
  split
  next h => subst h; exact hident
  next => rfl

theorem Part.backplanePhase (h : Part p s q t) (hi : BackplanePhase p s) : BackplanePhase q t := by
  obtain ⟨hasc, honce, hexact⟩ := hi.identification
  cases h with
  | note granted numbered due =>
    exact hi.congr rfl rfl fun h => by simp only [Bool.or_eq_false_iff] at h; exact h.1
  | answer | tackExpiry | completeWaits | defer => exact hi.congr (by simp) (by simp) id
  | entryLost => exact hi.congr (by simp) (by simp) id
  | purge h =>
    rw [State.purge_eq]
    refine ⟨?_, fun hd hc => ?_, hi.identification.congr rfl (fun slot d => discardIf_identify) fun _ => Iff.rfl,
      hi.slots.congr rfl⟩
    · exact hi.guarded.trans (discardIf_isAccess _ _).symm
    · obtain ⟨hq, hids⟩ := hi.served hd (Option.map_eq_none_iff.1 hc)
      exact ⟨by simp [State.shed, State.setWaits, State.keepLeases, Backplane.close, hq], hids⟩
  | presenceRise slot =>
    by_cases hp : (s.slots[slot]).presence = false
    · have hempty := (hi.slots slot).1.2 hp
      rw [State.presenceRise_of_empty hempty hp]
      exact hi.setSlot (iff_of_false (fun h => nomatch h) (by rw [hempty]; exact fun h => nomatch h))
        ⟨iff_of_false (fun h => nomatch h) (fun h => nomatch h), fun _ _ h => nomatch h⟩
    · rw [State.presenceRise, if_pos (by simpa using hp)]
      exact hi
  | attention slot => exact hi.setSlot Iff.rfl (hi.slots slot)
  | @settle slot d hs hd =>
    have hnot : ¬ (slot ∈ s.bp.pendingIds ∨ s.identifies slot) := fun h => by
      have := (hexact slot).2 h
      rw [hs] at this
      cases this
    have hpresent : (s.slots[slot]).presence ≠ false := fun h => by
      have := (hi.slots slot).1.2 h
      rw [hs] at this
      cases this
    refine ⟨hi.guarded, fun h => absurd h (by simp [hd]), ⟨ascending_insertSlot hasc, fun i d' hc => ?_, fun i => ?_⟩,
      hi.slots.of_setSlot (i := slot) (f := fun r => { r with state := .identifying }) ?_ rfl⟩
    · rw [mem_insertSlot]
      rintro (rfl | hm)
      · exact hnot (.inr ⟨d', hc⟩)
      · exact honce i d' hc hm
    · rw [show (i ∈ insertSlot slot s.bp.pendingIds) = _ from propext mem_insertSlot]
      have hslots := State.setSlot_slots slot i (fun r => { r with state := .identifying }) s
      simp only [] at hslots ⊢
      rw [hslots]
      by_cases h : slot = i
      · simp [h]
      · simp only [h, Ne.symm h, if_false, false_or]
        exact hexact i
    · exact ⟨iff_of_false (fun h => nomatch h) hpresent, fun _ _ h => nomatch h⟩
  | emptySlot slot hs =>
    exact hi.setSlot (iff_of_false (fun h => nomatch h) hs) SlotRecord.lawful_empty
  | withdraw slot hs hc =>
    refine ⟨hi.guarded, fun hd hn => ?_, ⟨hasc.sublist List.filter_sublist, fun i d hc' hm => ?_, fun i => ?_⟩,
      hi.slots.of_setSlot (i := slot) (f := fun r => { r with presence := false, state := .empty })
        SlotRecord.lawful_empty rfl⟩
    · obtain ⟨hq, hids⟩ := hi.served hd hn
      exact ⟨hq, by simp [State.withdraw, State.emptySlot, hids]⟩
    · exact honce i d hc' (List.mem_of_mem_filter hm)
    · have hslots := State.setSlot_slots slot i (fun r => { r with presence := false, state := .empty }) s
      have hslots' : ((s.emptySlot slot).withdraw slot).slots[i] = _ := hslots
      rw [hslots']
      by_cases h : slot = i
      · subst h
        have : ¬ s.identifies slot := fun ⟨d, hd⟩ => hc _ hd rfl
        simpa [State.withdraw, State.emptySlot, State.identifies] using this
      · simp only [h, if_false]
        simpa [State.withdraw, State.emptySlot, Ne.symm h] using hexact i
  | @abandon c slot hs hc hk hd =>
    obtain ⟨k, d⟩ := c
    obtain rfl : k = .identify slot := hk
    refine ⟨rfl, fun h => absurd h (by simp [hd]), ⟨hasc.sublist List.filter_sublist, fun i d hc' => (nomatch hc'), fun i => ?_⟩,
      hi.slots.of_setSlot (i := slot) (f := fun r => { r with presence := false, state := .empty })
        SlotRecord.lawful_empty rfl⟩
    have hslots := State.setSlot_slots slot i (fun r => { r with presence := false, state := .empty }) s
    have hslots' : ((s.emptySlot slot).withdraw slot).freeBackplane.slots[i] = _ := hslots
    rw [hslots']
    by_cases h : slot = i
    · subst h
      simp [State.withdraw, State.emptySlot, State.freeBackplane]
    · simp only [h, if_false]
      simpa [State.withdraw, State.emptySlot, State.freeBackplane, Ne.symm h, h, hc] using hexact i
  | @identified c slot o hc hk hs hd =>
    obtain ⟨k, d⟩ := c
    obtain rfl : k = .identify slot := hk
    have hpresent : (s.slots[slot]).presence ≠ false := fun h => by
      have := (hi.slots slot).1.2 h
      rw [hs] at this
      cases this
    refine ⟨rfl, fun h => absurd h (by simp [hd]), ⟨hasc, fun i d hc' => (nomatch hc'), fun i => ?_⟩,
      hi.slots.of_setSlot (i := slot) (f := fun r => { r with state := outcomeState o }) ?_ rfl⟩
    · rw [State.setSlot_slots]
      by_cases h : slot = i
      · subst h
        have hnone : slot ∉ s.bp.pendingIds := honce slot d hc
        rcases outcomeState_cases o with ho | ⟨n, c, ho, -⟩ <;> simp [ho, State.freeBackplane, hnone]
      · simp only [h, if_false]
        simpa [State.freeBackplane, h, hc] using hexact i
    · refine ⟨iff_of_false (fun h => ?_) hpresent, fun n c h => ?_⟩ <;>
        rcases outcomeState_cases o with ho | ⟨n', c', ho, hn⟩ <;> rw [ho] at h <;> cases h
      exact hn
  | @unidentified c slot hc hk hs =>
    obtain ⟨k, d⟩ := c
    obtain rfl : k = .identify slot := hk
    exact absurd ((hexact slot).2 (.inr ⟨d, hc⟩)) hs
  | @endAccess c h slot ch op reg discard pl hc hk _ hd =>
    obtain ⟨k, d⟩ := c
    obtain rfl : k = .access h slot ch op reg discard := hk
    refine ⟨rfl, fun h => absurd h (by simp [hd]), hi.identification.congr ?_ ?_ ?_, hi.slots.congr (by simp)⟩
    · simp [State.freeBackplane]
    · simp [State.freeBackplane, hc]
    · simp
  | joinQueue _ hd =>
    exact ⟨hi.guarded, fun h => absurd h (by simp [hd]),
      hi.identification.congr rfl (fun _ _ => Iff.rfl) fun _ => Iff.rfl, hi.slots.congr rfl⟩
  | @refuseHead e rest _ _ hc hq hd =>
    refine ⟨by simpa [State.setQueue] using hi.guarded, fun h => absurd h (by simp [hd]), hi.identification.congr ?_ ?_ ?_,
      hi.slots.congr (by simp [State.setQueue])⟩ <;> simp [State.setQueue]
  | _ => exact hi.congr rfl rfl id

theorem Ending.backplaneLaws (h : Ending p s t) (hi : BackplanePhase p s) :
    BackplaneLaw t ∧ IdentificationLaw t ∧ SlotLaw t := by
  have hlaws := hi.identification
  cases h with
  | done _ hd => exact ⟨⟨hi.guarded, hi.served hd⟩, hlaws, hi.slots⟩
  | noChoice _ hc => exact ⟨⟨hi.guarded, fun h => hc.resolve_left (by simp [h])⟩, hlaws, hi.slots⟩
  | @identify slot rest _ hc hids =>
    obtain ⟨hasc, honce, hexact⟩ := hlaws
    rw [hids] at hasc
    obtain ⟨hfirst, hrest⟩ := List.pairwise_cons.1 hasc
    have hguard := hi.guarded
    refine ⟨⟨by simpa [State.startIdentification, hc, Cycle.isAccess] using hguard, fun h => nomatch h⟩,
      ⟨hrest, fun i d h hm => ?_, fun i => ?_⟩, hi.slots.congr rfl⟩
    · obtain rfl : slot = i := by simpa [State.startIdentification] using congrArg (Option.map Cycle.kind) h
      exact absurd (hfirst slot hm) (lt_irrefl _)
    · have := hexact i
      simp only [hids, hc, List.mem_cons] at this
      simpa [State.startIdentification, or_comm, eq_comm] using this
  | @access e rest l _ hc hids hq hl =>
    refine ⟨⟨rfl, fun h => nomatch h⟩, hlaws.congr rfl (fun i d => ?_) fun _ => Iff.rfl, hi.slots.congr rfl⟩
    simp [State.startAccess, State.setQueue, hc]
  | linkClear hd | lineLow _ hd =>
    refine ⟨⟨hi.guarded.trans (discardIf_isAccess _ _).symm, fun h => ⟨rfl, ?_⟩⟩,
      hlaws.congr rfl (fun _ _ => discardIf_identify) fun _ => Iff.rfl, hi.slots.congr rfl⟩
    exact (hi.served hd (Option.map_eq_none_iff.1 h)).2
  | powerOn pins =>
    have hslot (i : SlotNo) : (s.powerOn pins).slots[i] = SlotRecord.powerOn s.now pins.presence[i] pins.attention[i] := by
      simp [State.powerOn]
    refine ⟨⟨rfl, fun _ => ⟨rfl, rfl⟩⟩, ⟨List.Pairwise.nil, fun _ _ h => (nomatch h), fun i => ?_⟩, fun i => ?_⟩
    · rw [hslot]
      cases pins.presence[i] <;> simp [SlotRecord.powerOn, State.powerOn, Backplane.powerOn]
    · rw [hslot]
      cases pins.presence[i] <;> simp [SlotRecord.powerOn]

/-- Settles O52: between parts a choice of the arbiter may be due, at the end of an event it has been made. -/
theorem stepKeepsBackplaneLaws : Obligations.StepKeepsBackplaneLaws := fun _ _ hb hid hs h =>
  step_keeps (I := BackplanePhase) Part.backplanePhase Ending.backplaneLaws h ⟨hb.guarded, fun _ => hb.served, hid, hs⟩

end Sys2Proof.Machine
end

section
/-! PROOFS. The entry in flight, and one lost to contention, is the head of its queue (R155, R159, R160, R162). -/

namespace Sys2Proof.Machine

variable {p q : Progress} {s t : State}

/-! ### The entry in flight -/

theorem State.flying_eq_some {h : Addr} {n : Byte} :
    s.flying h = some n ↔ ∃ a, s.delivery.attempt = some a ∧ a.host = h ∧ a.seq = n := by
  unfold State.flying
  cases s.delivery.attempt with
  | none => simp
  | some a => by_cases ha : a.host = h <;> simp [ha]

theorem State.flying_of_no_attempt (ha : s.delivery.attempt = none) (h : Addr) : s.flying h = none := by
  simp only [State.flying, ha]

/-- The entry in flight rests on the attempt alone. -/
theorem State.flying_congr (ha : t.delivery.attempt = s.delivery.attempt) (h : Addr) : t.flying h = s.flying h := by
  simp only [State.flying, ha]

theorem headInFlight_iff :
    HeadInFlight s ↔ ∀ h n, s.flying h = some n → ∃ x, s.session? h = some x ∧ headNumber x.out.entries = some n := by
  refine ⟨fun hi h n hf => ?_, fun hi a ha => hi a.host a.seq (State.flying_eq_some.2 ⟨a, ha, rfl, rfl⟩)⟩
  obtain ⟨a, ha, rfl, rfl⟩ := State.flying_eq_some.1 hf
  exact hi a ha

/-! ### What the operations on one queue do to its head -/

/-- The head in flight stays, and an entry lost to contention is forgotten or its queue's head stays as it was. -/
structure KeepsHead (flying : Option Byte) (q q' : OutboundQueue) : Prop where
  head : ∀ n, flying = some n → headNumber q.entries = some n → headNumber q'.entries = some n
  contended : ∀ n, q'.contended = some n → q.contended = some n ∧ headNumber q'.entries = headNumber q.entries

theorem KeepsHead.of_eq {fl : Option Byte} {q q' : OutboundQueue} (he : q'.entries = q.entries)
    (hc : q'.contended = q.contended) : KeepsHead fl q q' :=
  ⟨fun _ _ h => he ▸ h, fun _ h => ⟨hc ▸ h, by rw [he]⟩⟩

theorem KeepsHead.trans {fl : Option Byte} {q q' q'' : OutboundQueue} (h : KeepsHead fl q q') (h' : KeepsHead fl q' q'') :
    KeepsHead fl q q'' :=
  ⟨fun n hn hq => h'.head n hn (h.head n hn hq), fun n hn =>
    have ⟨h1, h2⟩ := h'.contended n hn
    have ⟨h3, h4⟩ := h.contended n h1
    ⟨h3, h2.trans h4⟩⟩

/-- Other entries for a queue: the mark of a lost transmission stays only with its head. -/
theorem OutboundQueue.withEntries_contended {q : OutboundQueue} {es : List Entry} {n : Byte}
    (h : (q.withEntries es).contended = some n) : q.contended = some n ∧ headNumber es = headNumber q.entries := by
  simp only [OutboundQueue.withEntries] at h
  split at h
  next he => exact ⟨h, he⟩
  next => cases h

theorem KeepsHead.withEntries {fl : Option Byte} {q : OutboundQueue} {es : List Entry}
    (hh : ∀ n, fl = some n → headNumber q.entries = some n → headNumber es = some n) :
    KeepsHead fl q (q.withEntries es) :=
  ⟨hh, fun _ => OutboundQueue.withEntries_contended⟩

theorem headNumber_cons (e : Entry) (es : List Entry) : headNumber (e :: es) = some e.seq := rfl

/-- A queue with a head has a first entry. -/
theorem headNumber_eq_some {es : List Entry} {n : Byte} : headNumber es = some n ↔ ∃ e rest, es = e :: rest ∧ e.seq = n := by
  cases es with
  | nil => simp [headNumber]
  | cons e rest => simp [headNumber]

theorem headNumber_append {es : List Entry} {n : Byte} (h : headNumber es = some n) (e : Entry) :
    headNumber (es ++ [e]) = some n := by
  obtain ⟨e', rest, rfl, rfl⟩ := headNumber_eq_some.1 h
  rfl

theorem OutboundQueue.push_keepsHead (fl : Option Byte) (q : OutboundQueue) (b : EntryBody) : KeepsHead fl q (q.push b) :=
  have h := KeepsHead.withEntries (fl := fl) (q := q) (es := q.entries ++ [({ seq := q.nextNumber, body := b } : Entry)])
    fun _ _ h => headNumber_append h _
  ⟨h.head, h.contended⟩

theorem OutboundQueue.joinNotice_keepsHead (fl : Option Byte) (q : OutboundQueue) (n : Notice) :
    KeepsHead fl q (q.joinNotice n) := by
  unfold OutboundQueue.joinNotice
  split
  · exact OutboundQueue.push_keepsHead fl q _
  · exact .of_eq rfl rfl

/-- Only undelivered entries are replaced, so the head in flight stays. -/
theorem OutboundQueue.replaceRecall_keepsHead (fl : Option Byte) (q : OutboundQueue) (f : Entry → Bool) (n : Notice) :
    KeepsHead fl q (q.replaceRecall (fun e => e.undelivered fl && f e) n) := by
  have h := KeepsHead.withEntries (fl := fl) (q := q)
    (es := replaceFirst (fun e => e.undelivered fl && f e) { seq := q.nextNumber, body := .notice n none } q.entries)
    fun m hm hq => by
      obtain ⟨e, rest, he, rfl⟩ := headNumber_eq_some.1 hq
      simp [he, replaceFirst, Entry.undelivered, hm, headNumber]
  exact ⟨h.head, h.contended⟩

theorem OutboundQueue.hand_keepsHead (fl : Option Byte) (q : OutboundQueue) (n : Notice) :
    KeepsHead fl q (q.hand fl n) := by
  unfold OutboundQueue.hand
  split
  · split
    · exact .of_eq rfl rfl
    · exact q.joinNotice_keepsHead fl _
  · exact q.joinNotice_keepsHead fl _
  all_goals
    split
    · exact q.replaceRecall_keepsHead fl _ _
    · exact q.joinNotice_keepsHead fl _

theorem OutboundQueue.unbook_keepsHead (fl : Option Byte) (q : OutboundQueue) (slot : SlotNo) :
    KeepsHead fl q (q.unbook fl slot) := by
  have h := KeepsHead.withEntries (fl := fl) (q := q)
    (es := q.entries.filter (fun e => !(e.undelivered fl && e.isAttention slot)))
    fun m hm hq => by
      obtain ⟨e, rest, he, rfl⟩ := headNumber_eq_some.1 hq
      simp [he, Entry.undelivered, hm, headNumber]
  exact ⟨h.head, h.contended⟩

/-- When the head is undelivered again it stays the head, and the mark of a lost transmission stays only with it. -/
theorem OutboundQueue.returned_keepsHead (q : OutboundQueue) (n : Byte) : KeepsHead (some n) q (q.returned n) := by
  unfold OutboundQueue.returned
  split
  · refine .withEntries fun m hm hq => ?_
    obtain rfl : n = m := Option.some.inj hm
    obtain ⟨e, rest, he, rfl⟩ := headNumber_eq_some.1 hq
    simp [he, headNumber]
  · exact .of_eq rfl rfl

/-! ### What the parts do to the heads -/

/-- The attempt stays, every session's queue keeps its head, and a session that opens has lost no transmission. -/
structure KeepsHeads (s t : State) : Prop where
  attempt : t.delivery.attempt = s.delivery.attempt
  kept : ∀ h x, s.session? h = some x → ∃ y, t.session? h = some y ∧ KeepsHead (s.flying h) x.out y.out
  opened : ∀ h y, s.session? h = none → t.session? h = some y → y.out.contended = none

theorem KeepsHeads.of_eq (ha : t.delivery.attempt = s.delivery.attempt) (hs : t.sessions = s.sessions) : KeepsHeads s t := by
  have hsame (h : Addr) : t.session? h = s.session? h := by simp only [State.session?, hs]
  exact ⟨ha, fun h x hx => ⟨x, (hsame h).trans hx, .of_eq rfl rfl⟩, fun h y hn hy => by rw [hsame, hn] at hy; cases hy⟩

theorem KeepsHeads.trans {u : State} (h : KeepsHeads s t) (h' : KeepsHeads t u) : KeepsHeads s u := by
  refine ⟨h'.attempt.trans h.attempt, fun k x hx => ?_, fun k y hn hy => ?_⟩
  · obtain ⟨y, hy, hk⟩ := h.kept k x hx
    obtain ⟨z, hz, hk'⟩ := h'.kept k y hy
    rw [State.flying_congr h.attempt] at hk'
    exact ⟨z, hz, hk.trans hk'⟩
  · cases ht : t.session? k with
    | none => exact h'.opened k y ht hy
    | some z =>
      obtain ⟨w, hw, hk⟩ := h'.kept k z ht
      rw [hy] at hw
      cases hw
      cases hc : y.out.contended with
      | none => rfl
      | some n =>
        have := (hk.contended n hc).1
        rw [h.opened k z hn ht] at this
        cases this

theorem KeepsHeads.mapSession (s : State) (h : Addr) {f : Session → Session} (hf : ∀ x, (f x).host = x.host)
    (hk : ∀ x, KeepsHead (s.flying h) x.out (f x).out) : KeepsHeads s (s.mapSession h f) := by
  refine ⟨rfl, fun k x hx => ?_, fun k y hn hy => ?_⟩
  · rw [State.mapSession_session? s h f hf, hx]
    refine ⟨_, rfl, ?_⟩
    dsimp only
    split
    next hh =>
      rw [← s.session?_host hx, hh]
      exact hk x
    next => exact .of_eq rfl rfl
  · rw [State.mapSession_session? s h f hf, hn] at hy
    cases hy

theorem KeepsHeads.mapQueue (s : State) (h : Addr) {f : OutboundQueue → OutboundQueue}
    (hk : ∀ q, KeepsHead (s.flying h) q (f q)) : KeepsHeads s (s.mapQueue h f) :=
  .mapSession s h (f := fun x => { x with out := f x.out }) (fun _ => rfl) fun x => hk x.out

theorem KeepsHeads.answerWith (s : State) (h : Addr) (st : Status) (pl : List Byte) (c : Bool) :
    KeepsHeads s (s.answerWith h st pl c) := by
  unfold State.answerWith
  split
  · exact .of_eq rfl rfl
  · exact (KeepsHeads.mapSession s h (f := fun x => x.answered st pl) (fun _ => rfl) fun _ => .of_eq rfl rfl).trans
      (.of_eq rfl rfl)

theorem KeepsHeads.completeWaits (o : Completion) (ws : List Wait) (s : State) : KeepsHeads s (s.completeWaits o ws) := by
  induction ws generalizing s with
  | nil => exact .of_eq rfl rfl
  | cons w ws ih =>
    have hdrop : KeepsHeads s (s.dropWait w.session w.tag) := .of_eq rfl rfl
    exact (hdrop.trans (.mapQueue _ w.session fun q => q.push_keepsHead _ _)).trans (ih (s.completeWait o w))

theorem KeepsHeads.openSession (s : State) (h : Addr) (seq : Byte) (replaced : Bool) :
    KeepsHeads s (s.openSession h seq replaced) := by
  have hfind (k : Addr) : (s.openSession h seq replaced).session? k = (s.session? k).or
      (if h = k then some (Session.opened h (s.panel.classOf h) seq replaced) else none) := by
    simp only [State.session?, State.openSession, State.pushResponse, List.find?_append]
    congr 1
    by_cases hk : h = k <;> simp [Session.opened, hk]
  refine ⟨rfl, fun k x hx => ⟨x, by rw [hfind, hx]; rfl, .of_eq rfl rfl⟩, fun k y hn hy => ?_⟩
  rw [hfind, hn] at hy
  split at hy
  · cases hy; rfl
  · cases hy

/-- A session that a close leaves is the one that stood there. -/
theorem State.purge_session? (h k : Addr) (s : State) :
    (s.purge h).session? k = if k = h then none else s.session? k := by
  rw [State.purge_eq]
  simp only [State.session?, State.shed, State.setWaits, State.keepLeases, List.find?_filter]
  split
  next hk => simp [hk]
  next hk =>
    congr 1
    funext x
    by_cases hx : x.host = k <;> simp [hx, hk]

/-! ### The law -/

theorem KeepsHeads.headInFlight (h : KeepsHeads s t) (hi : HeadInFlight s) : HeadInFlight t := by
  rw [headInFlight_iff] at hi ⊢
  intro k n hf
  rw [State.flying_congr h.attempt] at hf
  obtain ⟨x, hx, hn⟩ := hi k n hf
  obtain ⟨y, hy, hk⟩ := h.kept k x hx
  exact ⟨y, hy, hk.head n hf hn⟩

theorem KeepsHeads.contendedLaw (h : KeepsHeads s t) (hi : ContendedLaw s) : ContendedLaw t := by
  intro k y n hy hc
  rw [State.flying_congr h.attempt]
  cases hx : s.session? k with
  | none =>
    rw [h.opened k y hx hy] at hc
    cases hc
  | some x =>
    obtain ⟨z, hz, hk⟩ := h.kept k x hx
    rw [hy] at hz
    cases hz
    obtain ⟨hc', hhead⟩ := hk.contended n hc
    obtain ⟨h1, h2⟩ := hi k x n hx hc'
    exact ⟨hhead.trans h1, h2⟩

/-- With no attempt there is no entry in flight. -/
theorem HeadInFlight.of_no_attempt (ha : t.delivery.attempt = none) : HeadInFlight t := by
  intro a h
  rw [ha] at h
  cases h

/-- The attempt ends, and one session's queue changes: a mark of a lost transmission stands at its head still. -/
theorem ContendedLaw.of_ended (hi : ContendedLaw s) (ha : t.delivery.attempt = none) {h : Addr} {f : Session → Session}
    (hf : ∀ x, (f x).host = x.host) (hs : t.sessions = (s.mapSession h f).sessions)
    (hk : ∀ x, s.session? h = some x → ∀ n, (f x).out.contended = some n →
      (x.out.contended = some n ∧ headNumber (f x).out.entries = headNumber x.out.entries) ∨
        headNumber (f x).out.entries = some n) : ContendedLaw t := by
  intro k y n hy hc
  have hsame : t.session? k = (s.mapSession h f).session? k := by simp only [State.session?, hs]
  rw [hsame, State.mapSession_session? s h f hf] at hy
  obtain ⟨x, hx, rfl⟩ := Option.map_eq_some_iff.1 hy
  refine ⟨?_, by simp [State.flying_of_no_attempt ha]⟩
  split at hc
  next hh =>
    rw [if_pos hh]
    have hxh : s.session? h = some x := by rw [← hh, s.session?_host hx]; exact hx
    rcases hk x hxh n hc with ⟨hc', hhead⟩ | hhead
    · exact hhead.trans (hi k x n hx hc').1
    · exact hhead
  next hh =>
    rw [if_neg hh]
    exact (hi k x n hx hc).1

/-- Starting the head leaves its number (R159). -/
theorem OutboundQueue.started_head (q : OutboundQueue) : headNumber q.started.entries = headNumber q.entries := by
  unfold OutboundQueue.started OutboundQueue.transmitHead
  split
  next he => simp [he, headNumber]
  next => rfl

/-- What a part does to the law of the head and, with it, to that of lost transmissions. -/
theorem Part.heads (h : Part p s q t) (hi : HeadInFlight s) :
    HeadInFlight t ∧ (ContendedLaw s → ContendedLaw t) := by
  have keeps (hk : KeepsHeads s t) : HeadInFlight t ∧ (ContendedLaw s → ContendedLaw t) :=
    ⟨hk.headInFlight hi, hk.contendedLaw⟩
  cases h with
  | quiet h hf => exact keeps (.mapSession s h hf.host fun x => .of_eq (hf.entries x) (hf.contended x))
  | accept h seq kind =>
    exact keeps (.mapSession s h (f := fun y => y.accept seq kind) (fun _ => rfl) fun _ => .of_eq rfl rfl)
  | answer => exact keeps (.answerWith s _ _ _ _)
  | @refuseHead e rest =>
    have hqueue : KeepsHeads s (s.setQueue rest) := .of_eq rfl rfl
    exact keeps (hqueue.trans (.answerWith _ _ _ _ _))
  | @endAccess c h slot ch op reg discard pl =>
    cases discard with
    | true => exact keeps (.of_eq rfl rfl)
    | false => exact keeps ((KeepsHeads.answerWith s h .done pl false).trans (.of_eq rfl rfl))
  | openSession h seq replaced => exact keeps (.openSession s h seq replaced)
  | purge h =>
    have hfly (k : Addr) : (s.purge h).flying k = if k = h then none else s.flying k := by
      rw [State.purge_eq]
      simp only [State.flying, State.shed, State.setWaits, State.keepLeases, Delivery.close]
      cases s.delivery.attempt with
      | none => simp
      | some a => by_cases ha : a.host = h <;> by_cases hk : a.host = k <;> by_cases hkh : k = h <;> simp_all
    refine ⟨headInFlight_iff.2 fun k n hf => ?_, fun hcont k y n hy hc => ?_⟩
    · rw [hfly] at hf
      split at hf
      · cases hf
      next hk =>
        rw [State.purge_session?, if_neg hk]
        exact headInFlight_iff.1 hi k n hf
    · rw [State.purge_session?] at hy
      split at hy
      · cases hy
      next hk =>
        rw [hfly, if_neg hk]
        exact hcont k y n hy hc
  | @grantWait hd _ _ w =>
    have hlease : KeepsHeads s (s.addLease (s.newLease hd w.session w.hold w.term)) := .of_eq rfl rfl
    exact keeps ((hlease.trans (.mapQueue _ w.session fun q => q.push_keepsHead _ _)).trans (.of_eq rfl rfl))
  | defer h a r =>
    have hwait : KeepsHeads s (if a.urgent then (s.addWait (s.newWait h a r)).markConflicts (s.newWait h a r)
        else s.addWait (s.newWait h a r)) := .of_eq (by simp) (by simp)
    exact keeps (hwait.trans (.mapSession _ h (f := fun x => { x with tags := x.tags ++ [a.tag] }) (fun _ => rfl)
      fun _ => .of_eq rfl rfl))
  | cancel h tag =>
    have hdrop : KeepsHeads s (s.dropWait h tag) := .of_eq rfl rfl
    exact keeps (hdrop.trans (.mapSession _ h
      (f := fun x => { x with tags := x.tags.filter (fun t => decide (t ≠ tag)) }) (fun _ => rfl) fun _ => .of_eq rfl rfl))
  | completeWaits o ws => exact keeps (.completeWaits o ws s)
  | handNotice h n => exact keeps (.mapQueue s h fun q => q.hand_keepsHead _ n)
  | unbook h slot => exact keeps (.mapQueue s h fun q => q.unbook_keepsHead _ slot)
  | @responseEnded x r =>
    exact keeps (KeepsHeads.mapSession s r.host (f := fun x => { x with inFlight := false }) (fun _ => rfl)
      (fun _ => .of_eq rfl rfl) |>.trans (.of_eq rfl rfl))
  | acknowledge h n =>
    exact ⟨.of_no_attempt rfl, fun hcont => hcont.of_ended rfl (f := Session.acked n) (fun _ => rfl) rfl
      fun _ _ _ hc => .inl (OutboundQueue.withEntries_contended hc)⟩
  | @startEntry x e rest hm ha hx he =>
    have hsession : (s.startEntry x.host e).session? x.host = some { x with out := x.out.started } := by
      refine (State.mapSession_session? s x.host (fun x => { x with out := x.out.started }) (fun _ => rfl) x.host).trans ?_
      rw [hx, Option.map_some, if_pos rfl]
    have hother (k : Addr) (hk : k ≠ x.host) : (s.startEntry x.host e).session? k = s.session? k :=
      State.mapSession_other s x.host (fun x => { x with out := x.out.started }) (fun _ => rfl) k hk
    refine ⟨fun a h => ?_, fun hcont k y n hy hc => ?_⟩
    · obtain rfl := Option.some.inj h
      exact ⟨_, hsession, by rw [he]; rfl⟩
    · by_cases hk : k = x.host
      · subst hk
        rw [hsession] at hy
        cases hy
        cases hc
      · rw [hother k hk] at hy
        refine ⟨(hcont k y n hy hc).1, fun hf => hk ?_⟩
        obtain ⟨a, ha', rfl, -⟩ := State.flying_eq_some.1 hf
        obtain rfl := Option.some.inj ha'
        rfl
  | @entryEnded x h n o =>
    have hfly (k : Addr) : (s.endTx.entryEnded h o).flying k = s.flying k := by
      simp only [State.flying, State.entryEnded]
      cases o <;> simp only [Bool.false_eq_true, if_false, if_true] <;> cases hd : s.delivery.attempt <;>
        simp [State.endTx, hd, Attempt.await]
    refine ⟨headInFlight_iff.2 fun k m hf => headInFlight_iff.1 hi k m ((hfly k).symm.trans hf), fun hcont k y m hy hc => ?_⟩
    rw [hfly]
    exact hcont k y m hy hc
  | @entryLost x h n o =>
    cases o with
    | false => exact keeps (.of_eq rfl rfl)
    | true =>
      cases ha : s.delivery.attempt with
      | none =>
        have hsame : s.endTx.entryLost true = s.endTx := by simp [State.entryLost, State.endTx, ha]
        rw [hsame] at keeps ⊢
        exact keeps (.of_eq rfl rfl)
      | some a =>
        rw [s.endTx.entryLost_attempt ha]
        refine ⟨.of_no_attempt rfl, fun hcont => hcont.of_ended rfl
          (f := fun x => { x with out := x.out.contend a.seq }) (fun _ => rfl) rfl fun x hx n hc => .inr ?_⟩
        obtain rfl : a.seq = n := Option.some.inj hc
        obtain ⟨x', hx', hhead⟩ := hi a ha
        rw [hx] at hx'
        cases hx'
        exact (x.out.returned_keepsHead a.seq).head _ rfl hhead
  | tackExpiry =>
    unfold State.tackExpiry
    split
    next h n _ d ha =>
      exact ⟨.of_no_attempt rfl, fun hcont => hcont.of_ended rfl (f := Session.tackExpired s.panel.config.attempts n)
        (fun _ => rfl) rfl fun x _ m hc => .inl ((x.out.returned_keepsHead n).contended m hc)⟩
    next => exact ⟨hi, id⟩
  | presenceRise => exact keeps (.of_eq (by simp) (by simp))
  | _ => exact keeps (.of_eq rfl rfl)

theorem Ending.heads (h : Ending p s t) (hi : HeadInFlight s) : HeadInFlight t ∧ (ContendedLaw s → ContendedLaw t) := by
  have cleared (ha : t.delivery.attempt = none) (hs : t.sessions = []) :
      HeadInFlight t ∧ (ContendedLaw s → ContendedLaw t) :=
    ⟨.of_no_attempt ha, fun _ k y n hy => by rw [State.session?_of_nil hs] at hy; cases hy⟩
  cases h with
  | linkClear | lineLow | powerOn => exact cleared rfl rfl
  | _ =>
    have hk := KeepsHeads.of_eq (s := s) (t := _) rfl rfl
    exact ⟨hk.headInFlight hi, hk.contendedLaw⟩

/-- Settles O51: only the head of a queue goes into flight, no part takes it away while it is, and a mark of a lost
transmission stays only with its head. -/
theorem stepKeepsHeadInFlight : Obligations.StepKeepsHeadInFlight := by
  intro s t hi h
  exact step_keeps (I := fun _ u => HeadInFlight u ∧ (ContendedLaw s → ContendedLaw u))
    (J := fun u => HeadInFlight u ∧ (ContendedLaw s → ContendedLaw u))
    (fun hp ⟨hi, hc⟩ => have ⟨hi', hc'⟩ := hp.heads hi; ⟨hi', hc' ∘ hc⟩)
    (fun he ⟨hi, hc⟩ => have ⟨hi', hc'⟩ := he.heads hi; ⟨hi', hc' ∘ hc⟩) h ⟨hi, id⟩

end Sys2Proof.Machine
end

section
/-! PROOFS. A request in flight has one carrier (R97, R127): within an event, the request itself while it stands
unanswered. -/

namespace Sys2Proof.Machine

variable {p q : Progress} {s t : State}

/-! ### The two counts -/

/-- One for a host whose session has a request in flight. -/
def State.flight (s : State) (h : Addr) : Nat := ((s.session? h).any Session.inFlight).toNat

/-- One for the session that an ACCESS cycle is to answer. -/
def flightOnCycle (h : Addr) : Option Cycle → Nat
  | some { kind := .access k _ _ _ _ false, .. } => if k = h then 1 else 0
  | _ => 0

/-- One for the session whose in-flight state the frame in transmission is to end. -/
def flightOnAir (h : Addr) : Option Transmission → Nat
  | some { item := .response r, .. } => if r.endsFlight = true ∧ r.host = h then 1 else 0
  | _ => 0

/-- How many of these responses are to end the in-flight state of the session. -/
def flightWaiting (h : Addr) (rs : List Response) : Nat := rs.countP (fun r => r.endsFlight && decide (r.host = h))

/-- How many queued accesses are the session's. -/
def flightQueued (h : Addr) (es : List AccessEntry) : Nat := es.countP (fun e => decide (e.session = h))

theorem State.carriers_eq (s : State) (h : Addr) :
    s.carriers h =
      flightQueued h s.bp.queue + flightOnCycle h s.bp.cycle + flightWaiting h s.link.responses +
        flightOnAir h s.link.tx := rfl

theorem flightLaw_iff : FlightLaw s ↔ ∀ h, s.carriers h = s.flight h := by
  have hside (h : Addr) : s.flight h = (match s.session? h with
      | some x => if x.inFlight then 1 else 0
      | none => 0) := by
    unfold State.flight
    cases s.session? h with
    | none => rfl
    | some x => cases hx : x.inFlight <;> simp [hx]
  exact forall_congr' fun h => Iff.of_eq (congrArg (s.carriers h = ·) (hside h).symm)

/-- One if this is the host. -/
def hostCount (k h : Addr) : Nat := if k = h then 1 else 0

theorem hostCount_self (h : Addr) : hostCount h h = 1 := if_pos rfl

theorem flightWaiting_cons (h : Addr) (r : Response) (rs : List Response) :
    flightWaiting h (r :: rs) = flightWaiting h rs + if r.endsFlight = true then hostCount r.host h else 0 := by
  rw [flightWaiting, List.countP_cons, flightWaiting, hostCount]
  cases r.endsFlight <;> simp

theorem flightQueued_cons (h : Addr) (e : AccessEntry) (es : List AccessEntry) :
    flightQueued h (e :: es) = flightQueued h es + hostCount e.session h := by
  rw [flightQueued, List.countP_cons, flightQueued, hostCount]
  simp

theorem flightOnAir_response (h : Addr) (r : Response) (wire : List Byte) :
    flightOnAir h (some { item := .response r, wire }) = if r.endsFlight = true then hostCount r.host h else 0 := by
  simp only [flightOnAir, hostCount]
  cases r.endsFlight <;> simp

theorem flightOnCycle_access (h k : Addr) (slot : SlotNo) (ch : ChannelNo) (op : Operation) (reg : Byte) (d : Bool)
    (x : Instant) :
    flightOnCycle h (some { kind := .access k slot ch op reg d, silence := x }) = if d = true then 0 else hostCount k h := by
  cases d <;> rfl

/-! ### Sessions -/

theorem State.flight_of_session {h : Addr} {x : Session} (hx : s.session? h = some x) : s.flight h = x.inFlight.toNat := by
  simp [State.flight, hx]

theorem State.flight_of_none {h : Addr} (hx : s.session? h = none) : s.flight h = 0 := by
  simp [State.flight, hx]

/-- A session that is known to be in flight. -/
theorem State.flight_pos {h : Addr} (hf : 0 < s.flight h) : ∃ x, s.session? h = some x ∧ x.inFlight = true := by
  cases hx : s.session? h with
  | none => simp [State.flight_of_none hx] at hf
  | some x =>
    rw [State.flight_of_session hx] at hf
    exact ⟨x, rfl, by cases hi : x.inFlight <;> simp_all⟩

theorem State.flight_le (s : State) (h : Addr) : s.flight h ≤ 1 := Bool.toNat_le _

theorem State.flight_sessions (hs : t.sessions = s.sessions) : t.flight = s.flight := by
  funext h
  simp only [State.flight, State.session?, hs]

theorem State.flight_mapSession_other (s : State) (h : Addr) {f : Session → Session} (hf : ∀ x, (f x).host = x.host)
    {k : Addr} (hk : k ≠ h) : (s.mapSession h f).flight k = s.flight k := by
  rw [State.flight, State.mapSession_other s h f hf k hk, State.flight]

theorem State.flight_mapSession_same (s : State) (h : Addr) {f : Session → Session} (hf : ∀ x, (f x).host = x.host) {x : Session}
    (hx : s.session? h = some x) : (s.mapSession h f).flight h = (f x).inFlight.toNat := by
  apply State.flight_of_session
  rw [State.mapSession_session? s h f hf, hx, Option.map_some, if_pos (s.session?_host hx)]

/-- A change of a session's record that leaves its request in flight or not. -/
theorem State.flight_mapSession (s : State) (h : Addr) {f : Session → Session} (hf : ∀ x, (f x).host = x.host)
    (hi : ∀ x, (f x).inFlight = x.inFlight) : (s.mapSession h f).flight = s.flight := by
  funext k
  rw [State.flight, State.mapSession_session? s h f hf, State.flight]
  cases s.session? k with
  | none => rfl
  | some x =>
    simp only [Option.map_some, Option.any_some]
    split <;> simp [hi]

/-! ### Responses -/

/-- A response that is formed is one more carrier, or none: one that it takes the place of is none (R159). -/
theorem State.pushResponse_carriers (s : State) (r : Response) (h : Addr) :
    (s.pushResponse r).carriers h = s.carriers h + if r.endsFlight = true then hostCount r.host h else 0 := by
  have hdropped : flightWaiting h (s.link.responses.filter (fun q => decide (q.taken = true) || decide (q.host ≠ r.host))) =
      flightWaiting h s.link.responses := by
    rw [flightWaiting, List.countP_filter, flightWaiting]
    refine List.countP_congr fun q _ => ?_
    cases ht : q.taken <;> simp [Response.endsFlight, ht]
  have hone : flightWaiting h [r] = if r.endsFlight = true then hostCount r.host h else 0 := by
    rw [flightWaiting_cons]
    simp [flightWaiting]
  have happend (rs : List Response) : flightWaiting h (rs ++ [r]) = flightWaiting h rs + flightWaiting h [r] :=
    List.countP_append
  have hwait : flightWaiting h (s.pushResponse r).link.responses =
      flightWaiting h s.link.responses + if r.endsFlight = true then hostCount r.host h else 0 := by
    unfold State.pushResponse
    dsimp only
    split
    · rw [happend, hone]
    · rw [happend, hone, hdropped]
  rw [State.carriers_eq, hwait, State.carriers_eq]
  simp only [State.pushResponse]
  omega

/-- The answer to a request in flight takes the place of what stood for the request, or ends its flight (R95, R97). -/
theorem State.answerWith_balance {h : Addr} (hf : s.flight h = 1) (st : Status) (pl : List Byte) (c : Bool) (k : Addr) :
    (s.answerWith h st pl c).carriers k + s.flight k =
      s.carriers k + (s.answerWith h st pl c).flight k + hostCount h k := by
  obtain ⟨x, hx, hin⟩ := State.flight_pos (s := s) (h := h) (by omega)
  have hanswer : s.answerWith h st pl c = (s.mapSession h (fun x => x.answered st pl)).pushResponse
      { host := h, seq := x.lastSeq, status := st, payload := pl, taken := true, owner := .session, clears := c } := by
    simp only [State.answerWith, hx]
  have hflight : (s.answerWith h st pl c).flight = (s.mapSession h (fun x => x.answered st pl)).flight := by
    rw [hanswer]
    exact State.flight_sessions rfl
  have hcar : (s.answerWith h st pl c).carriers k = s.carriers k + if st = .deferred then 0 else hostCount h k := by
    rw [hanswer, State.pushResponse_carriers]
    have hsame : (s.mapSession h (fun x => x.answered st pl)).carriers k = s.carriers k := rfl
    rw [hsame]
    by_cases hst : st = .deferred <;> simp [Response.endsFlight, hst]
  rw [hcar, hflight]
  by_cases hk : k = h
  · subst hk
    have hafter : (s.mapSession k (fun x => x.answered st pl)).flight k = (x.answered st pl).inFlight.toNat :=
      State.flight_mapSession_same s k (f := fun x => x.answered st pl) (fun _ => rfl) hx
    rw [hafter, hf, hostCount_self]
    by_cases hst : st = .deferred <;> simp [Session.answered, hin, hst]
  · have hafter : (s.mapSession h (fun x => x.answered st pl)).flight k = s.flight k :=
      State.flight_mapSession_other s h (f := fun x => x.answered st pl) (fun _ => rfl) hk
    have hno : hostCount h k = 0 := if_neg fun e => hk e.symm
    rw [hafter, hno]
    split <;> omega

/-! ### Closing a session -/

theorem flightQueued_close (h k : Addr) (b : Backplane) :
    flightQueued k (b.close h).queue = if k = h then 0 else flightQueued k b.queue := by
  simp only [flightQueued, Backplane.close, List.countP_filter]
  split
  next hk => simp [hk]
  next hk =>
    refine List.countP_congr fun e _ => ?_
    by_cases he : e.session = k <;> simp [he, hk]

theorem flightOnCycle_close (h k : Addr) (b : Backplane) :
    flightOnCycle k (b.close h).cycle = if k = h then 0 else flightOnCycle k b.cycle := by
  simp only [Backplane.close]
  rcases b.cycle with _ | ⟨_ | ⟨j, slot, ch, op, reg, d⟩, x⟩
  · simp [flightOnCycle]
  · simp [flightOnCycle, CycleKind.discardIf]
  · simp only [Option.map_some, CycleKind.discardIf, flightOnCycle_access, hostCount]
    cases d <;> by_cases hj : j = h <;> by_cases hk : k = h <;> simp_all [eq_comm]

theorem flightWaiting_close (h k : Addr) (l : Link) :
    flightWaiting k (l.close h).responses = if k = h then 0 else flightWaiting k l.responses := by
  simp only [flightWaiting, Link.close, List.countP_filter]
  split
  next hk =>
    refine List.countP_eq_zero.2 fun r _ => ?_
    simp only [hk, Response.endsFlight, Response.isOf]
    cases decide (r.host = h) <;> cases decide (r.owner = .session) <;> simp
  next hk =>
    refine List.countP_congr fun r _ => ?_
    by_cases hr : r.host = k <;> simp [hr, hk, Response.isOf]

theorem flightOnAir_close (h k : Addr) (l : Link) :
    flightOnAir k (l.close h).tx = if k = h then 0 else flightOnAir k l.tx := by
  simp only [Link.close]
  rcases l.tx with _ | ⟨r | _, wire⟩
  · simp [flightOnAir]
  · simp only [Option.map_some, TxItem.close, flightOnAir_response, hostCount]
    by_cases hclosed : r.host = h ∧ r.owner = .session
    · rw [if_pos hclosed, hclosed.1]
      have hnone : ({ r with host := h, owner := .closed } : Response).endsFlight = false := by simp [Response.endsFlight]
      rw [hnone]
      by_cases hk : k = h
      · rw [if_pos hk]
        rfl
      · have hno : ¬ h = k := fun e => hk e.symm
        rw [if_neg hk, if_neg hno, ite_self, ite_self]
    · rw [if_neg hclosed]
      by_cases hk : k = h
      · have hno : r.host = k → r.endsFlight = false := fun hr => by
          have : r.owner ≠ .session := fun ho => hclosed ⟨hr.trans hk, ho⟩
          simp [Response.endsFlight, this]
        rw [if_pos hk]
        by_cases hr : r.host = k
        · rw [hno hr]
          rfl
        · rw [if_neg hr, ite_self]
      · rw [if_neg hk]
  · simp [flightOnAir, TxItem.close]

/-- A close leaves no carrier of the session's, and those of the others (R92). -/
theorem State.purge_carriers (h k : Addr) (s : State) :
    (s.purge h).carriers k = if k = h then 0 else s.carriers k := by
  rw [State.carriers_eq, State.carriers_eq, State.purge_eq]
  simp only [State.shed, State.setWaits, State.keepLeases, flightQueued_close, flightOnCycle_close, flightWaiting_close,
    flightOnAir_close]
  split <;> rfl

theorem State.purge_flight (h k : Addr) (s : State) : (s.purge h).flight k = if k = h then 0 else s.flight k := by
  rw [State.flight, State.purge_session?]
  split <;> rfl

/-! ### The phase -/

/-- Within an event, the request that stands unanswered is the one carrier of its flight. -/
def FlightPhase (p : Progress) (s : State) : Prop :=
  ∀ h, s.carriers h + (if p.taken = some h then 1 else 0) = s.flight h

theorem FlightPhase.congr (hi : FlightPhase p s) (ht : q.taken = p.taken) (hq : t.bp.queue = s.bp.queue)
    (hc : t.bp.cycle = s.bp.cycle) (hl : t.link.responses = s.link.responses) (hx : t.link.tx = s.link.tx)
    (hf : t.flight = s.flight) : FlightPhase q t := by
  intro h
  rw [← congrFun hf.symm h, ← hi h, ht, State.carriers_eq, State.carriers_eq, hq, hc, hl, hx]

/-- A part that moves carriers about, and leaves the sessions. -/
theorem FlightPhase.of_carriers (hi : FlightPhase p s) (ht : q.taken = p.taken) (hc : ∀ k, t.carriers k = s.carriers k)
    (hf : t.flight = s.flight) : FlightPhase q t := by
  intro k
  rw [hc, ht, hf]
  exact hi k

/-- A request that stands unanswered is in flight. -/
theorem FlightPhase.flight_of_taken {h : Addr} (hi : FlightPhase p s) (ht : p.taken = some h) : s.flight h = 1 := by
  have := hi h
  have := s.flight_le h
  rw [ht, if_pos rfl] at *
  omega

/-- With no request unanswered the two counts agree. -/
theorem FlightPhase.balanced (hi : FlightPhase p s) (ht : p.taken = none) (h : Addr) : s.carriers h = s.flight h := by
  simpa [ht] using hi h

theorem FlightPhase.of_balanced (ht : p.taken = none) (hi : ∀ h, s.carriers h = s.flight h) : FlightPhase p s := by
  intro h
  simpa [ht] using hi h

theorem State.completeWaits_flight (o : Completion) (ws : List Wait) (s : State) : (s.completeWaits o ws).flight = s.flight := by
  induction ws generalizing s with
  | nil => rfl
  | cons w ws ih =>
    exact (ih (s.completeWait o w)).trans (State.flight_mapSession (s.dropWait w.session w.tag) w.session
      (f := fun x => { x with out := x.out.handCompletion w.tag o }) (fun _ => rfl) fun _ => rfl)

theorem State.openSession_flight (s : State) (h : Addr) (seq : Byte) (replaced : Bool) (hx : s.session? h = none) (k : Addr) :
    (s.openSession h seq replaced).flight k = s.flight k + hostCount h k := by
  have hfind : (s.openSession h seq replaced).session? k = (s.session? k).or
      (if h = k then some (Session.opened h (s.panel.classOf h) seq replaced) else none) := by
    simp only [State.session?, State.openSession, State.pushResponse, List.find?_append]
    congr 1
    by_cases hk : h = k <;> simp [Session.opened, hk]
  rw [State.flight, hfind, State.flight, hostCount]
  by_cases hk : h = k
  · subst hk
    simp [hx, Session.opened]
  · simp [hk]

theorem State.freeBackplane_carriers {c : Cycle} {h : Addr} {slot : SlotNo} {ch : ChannelNo} {op : Operation} {reg : Byte}
    {discard : Bool} (hc : s.bp.cycle = some c) (hk : c.kind = .access h slot ch op reg discard) (k : Addr) :
    s.carriers k = s.freeBackplane.carriers k + if discard = true then 0 else hostCount h k := by
  obtain ⟨kind, x⟩ := c
  obtain rfl : kind = .access h slot ch op reg discard := hk
  rw [State.carriers_eq, State.carriers_eq, hc, flightOnCycle_access]
  have hfree : flightOnCycle k s.freeBackplane.bp.cycle = 0 := rfl
  rw [hfree]
  simp only [State.freeBackplane]
  omega

theorem Part.flightPhase (h : Part p s q t) (hi : FlightPhase p s) : FlightPhase q t := by
  have kept {k : Addr} {f : Session → Session} (hf : ∀ x, (f x).host = x.host) (hin : ∀ x, (f x).inFlight = x.inFlight)
      (s : State) : (s.mapSession k f).flight = s.flight := State.flight_mapSession s k hf hin
  cases h with
  | quiet h hf => exact hi.congr rfl rfl rfl rfl rfl (kept hf.host hf.inFlight s)
  | @accept x h seq kind hp hx hfree =>
    intro k
    have hbal : s.carriers k = s.flight k := hi.balanced hp k
    have hsame : (s.mapSession h (fun y => y.accept seq kind)).carriers k = s.carriers k := rfl
    rw [hsame]
    by_cases hk : k = h
    · subst hk
      have hafter : (s.mapSession k (fun y => y.accept seq kind)).flight k = 1 :=
        State.flight_mapSession_same s k (f := fun y => y.accept seq kind) (fun _ => rfl) hx
      have hbefore : s.flight k = 0 := by rw [State.flight_of_session hx, hfree]; rfl
      rw [hafter, hbal, hbefore]
      simp
    · have hafter : (s.mapSession h (fun y => y.accept seq kind)).flight k = s.flight k :=
        State.flight_mapSession_other s h (f := fun y => y.accept seq kind) (fun _ => rfl) hk
      have hno : ¬ (some h : Option Addr) = some k := fun e => hk (Option.some.inj e).symm
      rw [hafter, hbal]
      simp [hno]
  | @answer h st pl c hp =>
    refine .of_balanced rfl fun k => ?_
    have hbal := State.answerWith_balance (hi.flight_of_taken hp) st pl c k
    have hk := hi k
    simp only [hp, Option.some.injEq] at hk
    rw [hostCount] at hbal
    omega
  | @respond r hr =>
    refine hi.of_carriers rfl (fun k => ?_) (State.flight_sessions rfl)
    rw [State.pushResponse_carriers, hr]
    rfl
  | openSession h seq replaced hp hs h0 hnew =>
    refine .of_balanced hp fun k => ?_
    rw [State.openSession_flight s h seq replaced hnew, ← hi.balanced hp]
    exact State.pushResponse_carriers { s with sessions := _ } _ k
  | purge h hg hp =>
    refine .of_balanced rfl fun k => ?_
    rw [State.purge_carriers, State.purge_flight]
    split
    · rfl
    next hk =>
      rcases hp with hp | hp
      · exact hi.balanced hp k
      · have hno : ¬ (some h : Option Addr) = some k := fun e => hk (Option.some.inj e).symm
        simpa [hp, hno] using hi k
  | @grantWait hd _ _ w =>
    exact hi.congr rfl rfl rfl rfl rfl
      (kept (f := fun x => { x with out := x.out.handCompletion w.tag (.granted hd s.lm.nextToken w.term) })
        (fun _ => rfl) (fun _ => rfl) (s.addLease (s.newLease hd w.session w.hold w.term)))
  | defer h a r =>
    refine hi.congr rfl (by simp) (by simp) (by simp) (by simp) ?_
    refine (kept (f := fun x => { x with tags := x.tags ++ [a.tag] }) (fun _ => rfl) (fun _ => rfl) _).trans ?_
    exact State.flight_sessions (by simp)
  | cancel h tag =>
    exact hi.congr rfl rfl rfl rfl rfl (kept (f := fun x => { x with tags := x.tags.filter (fun t => decide (t ≠ tag)) })
      (fun _ => rfl) (fun _ => rfl) (s.dropWait h tag))
  | completeWaits o ws =>
    exact hi.congr rfl (by simp) (by simp) (by simp) (by simp) (State.completeWaits_flight o ws s)
  | handNotice h n =>
    exact hi.congr rfl rfl rfl rfl rfl (kept (f := fun x => { x with out := x.out.hand (s.flying h) n })
      (fun _ => rfl) (fun _ => rfl) s)
  | unbook h slot =>
    exact hi.congr rfl rfl rfl rfl rfl (kept (f := fun x => { x with out := x.out.unbook (s.flying h) slot })
      (fun _ => rfl) (fun _ => rfl) s)
  | acknowledge h n =>
    exact hi.congr rfl rfl rfl rfl rfl (kept (f := Session.acked n) (fun _ => rfl) (fun _ => rfl) s)
  | presenceRise => exact hi.congr rfl (by simp) (by simp) (by simp) (by simp) (State.flight_sessions (by simp))
  | @abandon c slot hs hc hk =>
    obtain ⟨k, d⟩ := c
    obtain rfl : k = .identify slot := hk
    refine hi.of_carriers rfl (fun k => ?_) (State.flight_sessions rfl)
    rw [State.carriers_eq, State.carriers_eq, hc]
    rfl
  | @identified c slot o hc hk =>
    obtain ⟨k, d⟩ := c
    obtain rfl : k = .identify slot := hk
    refine hi.of_carriers rfl (fun k => ?_) (State.flight_sessions rfl)
    rw [State.carriers_eq, State.carriers_eq, hc]
    rfl
  | @unidentified c slot hc hk =>
    obtain ⟨k, d⟩ := c
    obtain rfl : k = .identify slot := hk
    refine hi.of_carriers rfl (fun k => ?_) (State.flight_sessions rfl)
    rw [State.carriers_eq, State.carriers_eq, hc]
    rfl
  | @endAccess c h slot ch op reg discard pl hc hk hp =>
    refine .of_balanced hp fun k => ?_
    have hbal := hi.balanced hp
    cases discard with
    | true =>
      have hfree := State.freeBackplane_carriers hc hk k
      rw [if_pos rfl] at hfree ⊢
      exact hfree.symm.trans (hbal k)
    | false =>
      have hfree := State.freeBackplane_carriers hc hk
      have hone : s.flight h = 1 := by
        have := hfree h
        have := hbal h
        have := s.flight_le h
        simp only [Bool.false_eq_true, if_false, hostCount_self] at *
        omega
      have hanswer := State.freeBackplane_carriers (s := s.answer h .done pl) (by simpa using hc) hk k
      have hback := State.answerWith_balance hone .done pl false k
      have hsame : (s.answerWith h .done pl false).freeBackplane.flight k = (s.answerWith h .done pl false).flight k := rfl
      have hdef : s.answer h .done pl = s.answerWith h .done pl false := rfl
      have := hbal k
      simp only [Bool.false_eq_true, if_false, hdef] at *
      omega
  | @joinQueue e a hp =>
    refine .of_balanced rfl fun k => ?_
    have hflight : (s.setQueue (s.bp.queue ++ [e])).flight k = s.flight k := rfl
    rw [hflight, ← hi k, hp, State.carriers_eq, State.carriers_eq]
    have hqueue : flightQueued k (s.bp.queue ++ [e]) = flightQueued k s.bp.queue + hostCount e.session k := by
      rw [flightQueued, List.countP_append]
      exact congrArg _ ((flightQueued_cons k e []).trans (Nat.zero_add _))
    simp only [State.setQueue, hqueue, hostCount, Option.some.injEq]
    omega
  | @refuseHead e rest st hp hc hq =>
    refine .of_balanced hp fun k => ?_
    have hbal := hi.balanced hp
    have hhead (j : Addr) : s.carriers j = (s.setQueue rest).carriers j + hostCount e.session j := by
      rw [State.carriers_eq, State.carriers_eq, hq, flightQueued_cons]
      simp only [State.setQueue]
      omega
    have hone : (s.setQueue rest).flight e.session = 1 := by
      have hsame : (s.setQueue rest).flight e.session = s.flight e.session := rfl
      have := hhead e.session
      have := hbal e.session
      have := s.flight_le e.session
      rw [hostCount_self] at *
      omega
    have hback := State.answerWith_balance hone st [] false k
    have hsame : (s.setQueue rest).flight k = s.flight k := rfl
    have hdef : (s.setQueue rest).answer e.session st [] = (s.setQueue rest).answerWith e.session st [] false := rfl
    have := hhead k
    have := hbal k
    rw [hdef]
    omega
  | @startResponse r rest hs hr =>
    have htx : s.link.tx = none := (State.maySend_iff.1 hs).1
    refine hi.of_carriers rfl (fun k => ?_) (State.flight_sessions rfl)
    rw [State.carriers_eq, State.carriers_eq, hr, htx, flightWaiting_cons]
    simp only [State.startResponse, flightOnAir_response]
    simp only [flightOnAir]
    omega
  | @startEntry x e rest hs =>
    have htx : s.link.tx = none := (State.maySend_iff.1 hs).1
    have hflight : (s.startEntry x.host e).flight = s.flight :=
      kept (f := fun x => { x with out := x.out.started }) (fun _ => rfl) (fun _ => rfl) s
    refine hi.of_carriers rfl (fun k => ?_) hflight
    rw [State.carriers_eq, State.carriers_eq, htx]
    rfl
  | @responseEnded x r ht hr he hp =>
    obtain ⟨_, wire⟩ := x
    obtain rfl := hr
    have hbal := hi.balanced hp
    have hcar (j : Addr) : s.carriers j = s.endTx.carriers j + hostCount r.host j := by
      rw [State.carriers_eq, State.carriers_eq, ht, flightOnAir_response, if_pos he]
      simp only [State.endTx, flightOnAir]
      omega
    have hsame (j : Addr) :
        (s.endTx.mapSession r.host (fun x => { x with inFlight := false })).carriers j = s.endTx.carriers j := rfl
    refine .of_balanced hp fun k => ?_
    have hk := hcar k
    have hb := hbal k
    rw [hsame]
    by_cases hh : k = r.host
    · subst hh
      obtain ⟨x, hx, -⟩ := State.flight_pos (s := s) (h := r.host) (by rw [← hb, hk, hostCount_self]; omega)
      have hafter : (s.endTx.mapSession r.host (fun x => { x with inFlight := false })).flight r.host = 0 :=
        State.flight_mapSession_same s.endTx r.host (f := fun x => { x with inFlight := false }) (fun _ => rfl) hx
      have := s.flight_le r.host
      rw [hostCount_self] at hk
      omega
    · have hafter : (s.endTx.mapSession r.host (fun x => { x with inFlight := false })).flight k = s.endTx.flight k :=
        State.flight_mapSession_other s.endTx r.host (f := fun x => { x with inFlight := false }) (fun _ => rfl) hh
      have hno : hostCount r.host k = 0 := if_neg fun e => hh e.symm
      have hend : s.endTx.flight k = s.flight k := rfl
      omega
  | @responseDropped x r ht hr he =>
    obtain ⟨_, wire⟩ := x
    obtain rfl := hr
    refine hi.of_carriers rfl (fun k => ?_) (State.flight_sessions rfl)
    rw [State.carriers_eq, State.carriers_eq, ht, flightOnAir_response, he]
    rfl
  | @responseReturned x r ht hr =>
    obtain ⟨_, wire⟩ := x
    obtain rfl := hr
    refine hi.of_carriers rfl (fun k => ?_) (State.flight_sessions rfl)
    rw [State.carriers_eq, State.carriers_eq, ht, flightOnAir_response]
    simp only [State.endTx, flightWaiting_cons]
    simp only [flightOnAir]
    omega
  | @entryEnded x h n o ht hitem =>
    obtain ⟨_, wire⟩ := x
    obtain rfl := hitem
    refine hi.of_carriers rfl (fun k => ?_) (State.flight_sessions rfl)
    rw [State.carriers_eq, State.carriers_eq, ht]
    rfl
  | @entryLost x h n o ht hitem =>
    obtain ⟨_, wire⟩ := x
    obtain rfl := hitem
    have hend (k : Addr) : s.endTx.carriers k = s.carriers k := by
      rw [State.carriers_eq, State.carriers_eq, ht]
      rfl
    have hphase : FlightPhase p s.endTx := hi.of_carriers rfl hend (State.flight_sessions rfl)
    unfold State.entryLost
    split
    next a _ =>
      exact hphase.of_carriers rfl (fun _ => rfl) (kept (f := fun x => { x with out := x.out.contend a.seq })
        (fun _ => rfl) (fun _ => rfl) s.endTx)
    next => exact hphase
  | tackExpiry =>
    unfold State.tackExpiry
    split
    next n _ d ha =>
      exact hi.of_carriers rfl (fun _ => rfl) (kept (f := Session.tackExpired s.panel.config.attempts n)
        (fun _ => rfl) (fun _ => rfl) s)
    next => exact hi
  | _ => exact hi.congr rfl rfl rfl rfl rfl (State.flight_sessions rfl)

theorem Ending.flightLaw (h : Ending p s t) (hi : FlightPhase p s) : FlightLaw t := by
  rw [flightLaw_iff]
  have cleared (c : Option Cycle) (hq : t.bp.queue = []) (hc : t.bp.cycle = c.map (fun c => { c with
      kind := c.kind.discardIf (fun _ => true) })) (hr : t.link.responses = []) (hx : t.link.tx = none)
      (hs : t.sessions = []) (k : Addr) : t.carriers k = t.flight k := by
    have hcycle : flightOnCycle k t.bp.cycle = 0 := by
      rw [hc]
      rcases c with _ | ⟨_ | ⟨j, slot, ch, op, reg, d⟩, x⟩
      · rfl
      · rfl
      · simp [CycleKind.discardIf, flightOnCycle]
    rw [State.carriers_eq, hcycle, hq, hr, hx, State.flight_of_none (State.session?_of_nil hs)]
    rfl
  cases h with
  | done hp => exact hi.balanced hp
  | noChoice hp => exact hi.balanced hp
  | identify hp hc =>
    intro k
    refine Eq.trans ?_ (hi.balanced hp k)
    rw [State.carriers_eq, State.carriers_eq, hc]
    rfl
  | access hp hc _ hq =>
    intro k
    refine Eq.trans ?_ (hi.balanced hp k)
    rw [State.carriers_eq, State.carriers_eq, hc, hq, flightQueued_cons]
    simp only [State.startAccess, State.setQueue, flightOnCycle_access]
    simp [flightOnCycle]
  | linkClear | lineLow => exact cleared s.bp.cycle rfl rfl rfl rfl rfl
  | powerOn => exact cleared none rfl rfl rfl rfl rfl

/-- Settles O53: within an event the request that stands unanswered is the one carrier; each part hands its flight on or
ends it. -/
theorem stepKeepsFlightLaw : Obligations.StepKeepsFlightLaw := fun _ _ hi h =>
  step_keeps (I := FlightPhase) Part.flightPhase Ending.flightLaw h
    (.of_balanced rfl (flightLaw_iff.1 hi))

end Sys2Proof.Machine
end

section
/-! PROOFS. One Outbound Queue: what its operations keep of the bounds of R147, R155 and R156, and which completions they
leave (R62, R146, R157, R161, R162). -/

namespace Sys2Proof.Machine

/-! ### Entries -/

/-- The tag of a completion. -/
def Entry.tag? (e : Entry) : Option Tag :=
  match e.body with
  | .completion tag _ => some tag
  | .notice _ _ => none

theorem OutboundQueue.completionTags_eq (q : OutboundQueue) : q.completionTags = q.entries.filterMap Entry.tag? := rfl

/-- A notice is no completion, and an entry is one or the other. -/
theorem Entry.tag?_eq_none {e : Entry} : e.tag? = none ↔ e.isNotice = true := by
  unfold Entry.tag? Entry.isNotice
  cases e.body <;> simp

theorem Entry.isNotice_of_isAttention {slot : SlotNo} {e : Entry} (h : e.isAttention slot = true) : e.isNotice = true := by
  unfold Entry.isAttention at h
  split at h
  next hb => simp only [Entry.isNotice, hb]
  next => cases h

theorem Entry.isNotice_of_isRecall {hd : Handle} {tk : Token} {e : Entry} (h : e.isRecall hd tk = true) :
    e.isNotice = true := by
  unfold Entry.isRecall at h
  split at h
  next hb => simp only [Entry.isNotice, hb]
  next => cases h

/-- A RECALL entry is no ATTENTION entry. -/
theorem Entry.isAttention_of_isRecall {hd : Handle} {tk : Token} {e : Entry} (h : e.isRecall hd tk = true) (slot : SlotNo) :
    e.isAttention slot = false := by
  unfold Entry.isRecall at h
  split at h
  next hb => simp [Entry.isAttention, hb]
  next => cases h

/-- An ATTENTION entry is for one slot. -/
theorem Entry.isAttention_slot {a b : SlotNo} {e : Entry} (ha : e.isAttention a = true) (hb : e.isAttention b = true) :
    a = b := by
  unfold Entry.isAttention at ha hb
  split at ha
  next s _ he =>
    rw [he] at hb
    exact (of_decide_eq_true ha).symm.trans (of_decide_eq_true hb)
  next => cases ha

/-! ### Lists whose elements have distinct keys -/

/-- What is counted does not change when an element is replaced by one that counts the same. -/
theorem countP_replaceFirst {α : Type} {p f : α → Bool} {new : α} (hf : ∀ a, p a = true → f a = f new) (as : List α) :
    (replaceFirst p new as).countP f = as.countP f := by
  induction as with
  | nil => rfl
  | cons a as ih =>
    unfold replaceFirst
    split
    next ha => simp only [List.countP_cons, hf a ha]
    next => simp only [List.countP_cons, ih]

theorem filterMap_replaceFirst {α β : Type} {p : α → Bool} {f : α → Option β} {new : α} (hf : ∀ a, p a = true → f a = f new)
    (as : List α) : (replaceFirst p new as).filterMap f = as.filterMap f := by
  induction as with
  | nil => rfl
  | cons a as ih =>
    unfold replaceFirst
    split
    next ha => simp only [List.filterMap_cons, hf a ha]
    next => simp only [List.filterMap_cons, ih]

theorem mem_replaceFirst {α : Type} {p : α → Bool} {new b : α} {as : List α} (h : b ∈ replaceFirst p new as) :
    b = new ∨ b ∈ as := by
  induction as with
  | nil => cases h
  | cons a as ih =>
    unfold replaceFirst at h
    split at h
    · rcases List.mem_cons.1 h with rfl | h
      · exact .inl rfl
      · exact .inr (List.mem_cons_of_mem _ h)
    · rcases List.mem_cons.1 h with rfl | h
      · exact .inr List.mem_cons_self
      · exact (ih h).imp id (List.mem_cons_of_mem _)

theorem nodup_replaceFirst {α β : Type} {p : α → Bool} {key : α → β} {new : α} {as : List α} (h : (as.map key).Nodup)
    (hnew : key new ∉ as.map key) : ((replaceFirst p new as).map key).Nodup := by
  induction as with
  | nil => exact h
  | cons a as ih =>
    rw [List.map_cons, List.nodup_cons] at h
    rw [List.map_cons, List.mem_cons, not_or] at hnew
    unfold replaceFirst
    split
    · rw [List.map_cons, List.nodup_cons]
      exact ⟨hnew.2, h.2⟩
    · rw [List.map_cons, List.nodup_cons]
      refine ⟨fun hm => ?_, ih h.2 hnew.2⟩
      obtain ⟨b, hb, he⟩ := List.mem_map.1 hm
      rcases mem_replaceFirst hb with rfl | hb
      · exact hnew.1 he
      · exact h.1 (he ▸ List.mem_map_of_mem hb)

/-- Elements with one key are the same one. -/
theorem eq_of_nodup_map {α β : Type} {key : α → β} {as : List α} (h : (as.map key).Nodup) {a b : α} (ha : a ∈ as)
    (hb : b ∈ as) (he : key a = key b) : a = b :=
  List.inj_on_of_nodup_map h ha hb he

/-- At most one element has this key. -/
theorem countP_key_le_one {α β : Type} [DecidableEq β] {key : α → β} {as : List α} (h : (as.map key).Nodup) (k : β) :
    as.countP (fun a => decide (key a = k)) ≤ 1 := by
  have hcount : as.countP (fun a => decide (key a = k)) = (as.map key).count k := by
    rw [List.count, List.countP_map]
    exact List.countP_congr fun a _ => by simp
  rw [hcount]
  exact List.nodup_iff_count_le_one.1 h k

/-- An element and those with other keys are the whole list. -/
theorem perm_cons_filter_key {α β : Type} [DecidableEq β] {key : α → β} {as : List α} (h : (as.map key).Nodup) {a : α}
    (ha : a ∈ as) : as.Perm (a :: as.filter (fun b => decide (key b ≠ key a))) := by
  induction as with
  | nil => cases ha
  | cons b as ih =>
    rw [List.map_cons, List.nodup_cons] at h
    rcases List.mem_cons.1 ha with rfl | ha
    · have hrest : as.filter (fun b => decide (key b ≠ key a)) = as :=
        List.filter_eq_self.2 fun c hc => decide_eq_true fun he => h.1 (he ▸ List.mem_map_of_mem hc)
      rw [List.filter_cons_of_neg (by simp), hrest]
    · have hne : key b ≠ key a := fun he => h.1 (he ▸ List.mem_map_of_mem ha)
      rw [List.filter_cons_of_pos (by simpa using hne)]
      exact ((ih h.2 ha).cons b).trans (List.Perm.swap a b _)

/-- Taking the one occurrence of an element out of a list. -/
theorem perm_filter_ne {α : Type} [DecidableEq α] {as bs : List α} {a : α} (h : as.Nodup) (hp : as.Perm (a :: bs)) :
    (as.filter (fun b => decide (b ≠ a))).Perm bs := by
  have hnodup := hp.nodup_iff.1 h
  have hbs : bs.filter (fun b => decide (b ≠ a)) = bs :=
    List.filter_eq_self.2 fun b hb => decide_eq_true fun he => (List.nodup_cons.1 hnodup).1 (he ▸ hb)
  have := hp.filter (fun b => decide (b ≠ a))
  rwa [List.filter_cons_of_neg (by simp), hbs] at this

/-! ### The bounds of one queue -/

/-- At most 8 notices, distinct numbers, and for each slot at most one undelivered ATTENTION entry (R147, R155, R156). -/
structure QueueOk (flying : Option Byte) (q : OutboundQueue) : Prop where
  notices : q.notices ≤ Config.maxNotices
  numbers : (q.entries.map Entry.seq).Nodup
  attention : ∀ slot : SlotNo, q.entries.countP (fun e => e.undelivered flying && e.isAttention slot) ≤ 1

variable {fl : Option Byte} {q q' : OutboundQueue}

theorem QueueOk.congr (h : QueueOk fl q) (he : q'.entries = q.entries) : QueueOk fl q' := by
  refine ⟨?_, he ▸ h.numbers, he ▸ h.attention⟩
  rw [OutboundQueue.notices, he]
  exact h.notices

/-- Some entries leave, and none of those that stay is undelivered that was not before. -/
theorem QueueOk.fewer (h : QueueOk fl q) {fl' : Option Byte} (hs : q'.entries.Sublist q.entries)
    (hf : ∀ slot, q'.entries.countP (fun e => e.undelivered fl' && e.isAttention slot) ≤ 1) : QueueOk fl' q' :=
  ⟨(hs.countP_le).trans h.notices, h.numbers.sublist (hs.map _), hf⟩

theorem QueueOk.sublist (h : QueueOk fl q) (hs : q'.entries.Sublist q.entries) : QueueOk fl q' :=
  h.fewer hs fun slot => hs.countP_le.trans (h.attention slot)

theorem List.countP_singleton_le {α : Type} (f : α → Bool) (a : α) : [a].countP f ≤ 1 := by
  rw [List.countP_singleton]
  split <;> simp

/-- An entry joins; a notice while there is room for it, an ATTENTION notice when none is undelivered for its slot. -/
theorem QueueOk.push (h : QueueOk fl q) (hl : q.entries.length < 256) (b : EntryBody)
    (hn : ∀ n l, b = .notice n l → q.notices < Config.maxNotices)
    (ha : ∀ slot l, b = .notice (.attention slot) l →
      q.entries.countP (fun e => e.undelivered fl && e.isAttention slot) = 0) : QueueOk fl (q.push b) := by
  refine ⟨?_, ?_, fun slot => ?_⟩
  · show (q.entries ++ [({ seq := q.nextNumber, body := b } : Entry)]).countP Entry.isNotice ≤ _
    rw [List.countP_append]
    cases b with
    | notice n l => exact hn n l rfl
    | completion => exact h.notices
  · show ((q.entries ++ [({ seq := q.nextNumber, body := b } : Entry)]).map Entry.seq).Nodup
    rw [List.map_append]
    exact h.numbers.append (List.nodup_singleton _) (List.disjoint_singleton.2 (q.nextNumber_free hl))
  · show (q.entries ++ [({ seq := q.nextNumber, body := b } : Entry)]).countP
      (fun e => e.undelivered fl && e.isAttention slot) ≤ _
    rw [List.countP_append]
    by_cases hb : ∃ l, b = .notice (.attention slot) l
    · obtain ⟨l, hb⟩ := hb
      rw [ha slot l hb, Nat.zero_add]
      exact List.countP_singleton_le _ _
    · have hno : Entry.isAttention slot { seq := q.nextNumber, body := b } = false := by
        unfold Entry.isAttention
        split
        next s l he => exact decide_eq_false fun hs => hb ⟨l, hs ▸ he⟩
        next => rfl
      rw [List.countP_singleton, hno]
      simpa using h.attention slot

theorem QueueOk.joinNotice (h : QueueOk fl q) (hl : q.entries.length < 256) (n : Notice)
    (ha : ∀ slot, n = .attention slot → q.entries.countP (fun e => e.undelivered fl && e.isAttention slot) = 0) :
    QueueOk fl (q.joinNotice n) := by
  unfold OutboundQueue.joinNotice
  split
  next hroom => exact h.push hl _ (fun _ _ _ => hroom) fun slot l he => ha slot (by cases he; rfl)
  next => exact h.congr rfl

/-- A retirement notice takes the place of a RECALL entry (R157). -/
theorem QueueOk.replaceRecall (h : QueueOk fl q) (hl : q.entries.length < 256) {hd : Handle} {tk : Token} (n : Notice)
    (hn : ∀ slot, n ≠ .attention slot) :
    QueueOk fl (q.replaceRecall (fun e => e.undelivered fl && e.isRecall hd tk) n) := by
  have hrecall (e : Entry) (he : (e.undelivered fl && e.isRecall hd tk) = true) : e.isRecall hd tk = true :=
    (Bool.and_eq_true_iff.1 he).2
  have hno (slot : SlotNo) : Entry.isAttention slot { seq := q.nextNumber, body := .notice n none } = false := by
    unfold Entry.isAttention
    split
    next s l he =>
      cases he
      exact absurd rfl (hn s)
    next => rfl
  refine ⟨?_, nodup_replaceFirst h.numbers (q.nextNumber_free hl), fun slot => ?_⟩
  · refine (countP_replaceFirst (fun e he => ?_) q.entries).trans_le h.notices
    exact Entry.isNotice_of_isRecall (hrecall e he)
  · refine (countP_replaceFirst (fun e he => ?_) q.entries).trans_le (h.attention slot)
    rw [hno, Entry.isAttention_of_isRecall (hrecall e he), Bool.and_false, Bool.and_false]

theorem QueueOk.hand (h : QueueOk fl q) (hl : q.entries.length < 256) (n : Notice) : QueueOk fl (q.hand fl n) := by
  unfold OutboundQueue.hand
  split
  next slot =>
    split
    next => exact h
    next hnone =>
      refine h.joinNotice hl _ fun s hs => ?_
      obtain rfl : slot = s := by cases hs; rfl
      exact List.countP_eq_zero.2 fun e he hu => hnone (List.any_eq_true.2 ⟨e, he, hu⟩)
  next => exact h.joinNotice hl _ fun _ he => nomatch he
  all_goals
    split
    · exact h.replaceRecall hl _ fun _ he => nomatch he
    · exact h.joinNotice hl _ fun _ he => nomatch he

theorem QueueOk.unbook (h : QueueOk fl q) (slot : SlotNo) : QueueOk fl (q.unbook fl slot) := h.sublist List.filter_sublist

/-- The entry in flight is acknowledged and leaves (R162). -/
theorem QueueOk.acked {n : Byte} (h : QueueOk (some n) q) : QueueOk none (q.acked n) := by
  refine h.fewer List.filter_sublist fun slot => ?_
  refine le_trans (le_of_eq ?_) (h.attention slot)
  show (q.entries.filter (fun e => decide (e.seq ≠ n))).countP _ = _
  rw [List.countP_filter]
  refine List.countP_congr fun e _ => ?_
  by_cases he : e.seq = n
  · simp [Entry.undelivered, he]
  · have hne : ¬ n = e.seq := fun h => he h.symm
    simp [Entry.undelivered, he, hne]

/-- The head goes into flight, and nothing else was (R155). -/
theorem QueueOk.flies (h : QueueOk none q) (n : Byte) : QueueOk (some n) q := by
  refine h.fewer (List.Sublist.refl _) fun slot => le_trans (List.countP_mono_left fun e _ he => ?_) (h.attention slot)
  rw [Bool.and_eq_true] at he ⊢
  exact ⟨by simp [Entry.undelivered], he.2⟩

/-- The first transmission of the head changes its LOST flag alone (R158). -/
theorem QueueOk.started (h : QueueOk fl q) : QueueOk fl q.started := by
  unfold OutboundQueue.started OutboundQueue.transmitHead
  split
  next seq n rest he =>
    obtain ⟨hn, hs, ha⟩ := h
    rw [OutboundQueue.notices, he] at hn
    rw [he] at hs ha
    refine ⟨hn, hs, fun slot => (le_of_eq ?_).trans (ha slot)⟩
    have hsame : Entry.isAttention slot { seq := seq, body := .notice n (some q.marker.lostFlag) } =
        Entry.isAttention slot { seq := seq, body := .notice n none } := by
      cases n <;> rfl
    simp only [List.countP_cons, hsame]
    rfl
  next => exact h.congr rfl

/-- The entry in flight is undelivered again (R147, R155): an ATTENTION entry, alone for its slot. -/
theorem QueueOk.returned {n : Byte} (h : QueueOk (some n) q) : QueueOk none (q.returned n) := by
  have hfly (e : Entry) : e.undelivered (some n) = decide (e.seq ≠ n) := by
    by_cases he : e.seq = n
    · simp [Entry.undelivered, he]
    · have hne : ¬ n = e.seq := fun h => he h.symm
      simp [Entry.undelivered, he, hne]
  have hall (e : Entry) : e.undelivered none = true := by simp [Entry.undelivered]
  have hhead (e : Entry) (he : e ∈ q.entries) (hn : e.seq = n) :
      q.entries.find? (fun e => decide (e.seq = n)) = some e := by
    cases hf : q.entries.find? (fun e => decide (e.seq = n)) with
    | none => exact absurd hn (by simpa using List.find?_eq_none.1 hf e he)
    | some e' =>
      have hn' : e'.seq = n := by simpa using List.find?_some hf
      rw [eq_of_nodup_map h.numbers (List.mem_of_find?_eq_some hf) he (hn'.trans hn.symm)]
  /- Unless the entry in flight is an ATTENTION entry for the slot, it does not count. -/
  have hother (slot : SlotNo) (hs : q.attentionOf n ≠ some slot) :
      q.entries.countP (fun e => e.undelivered none && e.isAttention slot) ≤ 1 := by
    refine le_trans (List.countP_mono_left fun e he hc => ?_) (h.attention slot)
    rw [hall, Bool.true_and] at hc
    rw [hfly, hc, Bool.and_true]
    refine decide_eq_true fun hn => hs ?_
    have hfound := hhead e he hn
    unfold Entry.isAttention at hc
    split at hc
    next s l hb =>
      obtain rfl := of_decide_eq_true hc
      obtain ⟨m, b⟩ := e
      obtain rfl : b = _ := hb
      simp only [OutboundQueue.attentionOf, hfound]
    next => cases hc
  unfold OutboundQueue.returned
  split
  next slot hslot =>
    refine h.fewer List.filter_sublist fun s => ?_
    show (q.entries.filter _).countP _ ≤ 1
    by_cases hs : s = slot
    · subst hs
      rw [List.countP_filter]
      refine le_trans (List.countP_mono_left fun e _ hc => ?_) (countP_key_le_one h.numbers n)
      simp only [Bool.and_eq_true, Bool.not_eq_true', Bool.and_eq_false_iff, decide_eq_false_iff_not, not_not] at hc
      obtain ⟨⟨-, hatt⟩, hkeep⟩ := hc
      exact decide_eq_true (hkeep.resolve_left (by simp [hatt]))
    · exact (List.filter_sublist.countP_le).trans (hother s fun he => hs (Option.some.inj (he.symm.trans hslot)))
  next hnone => exact ⟨h.notices, h.numbers, fun slot => hother slot (by simp [hnone])⟩

/-! ### The completions of one queue -/

theorem OutboundQueue.push_completionTags (q : OutboundQueue) (b : EntryBody) :
    (q.push b).completionTags = q.completionTags ++ (Entry.tag? { seq := q.nextNumber, body := b }).toList := by
  simp only [OutboundQueue.completionTags_eq, OutboundQueue.push, OutboundQueue.withEntries, List.filterMap_append]
  cases h : Entry.tag? { seq := q.nextNumber, body := b } <;> simp [h]

theorem OutboundQueue.joinNotice_completionTags (q : OutboundQueue) (n : Notice) :
    (q.joinNotice n).completionTags = q.completionTags := by
  unfold OutboundQueue.joinNotice
  split
  · rw [OutboundQueue.push_completionTags]
    exact List.append_nil _
  · rfl

/-- A notice handed to a queue leaves the completions (R157). -/
theorem OutboundQueue.hand_completionTags (q : OutboundQueue) (fl : Option Byte) (n : Notice) :
    (q.hand fl n).completionTags = q.completionTags := by
  have hreplace (hd : Handle) (tk : Token) (n : Notice) :
      (q.replaceRecall (fun e => e.undelivered fl && e.isRecall hd tk) n).completionTags = q.completionTags := by
    refine filterMap_replaceFirst (fun e he => ?_) q.entries
    exact Entry.tag?_eq_none.2 (Entry.isNotice_of_isRecall (Bool.and_eq_true_iff.1 he).2)
  unfold OutboundQueue.hand
  split
  · split
    · rfl
    · exact q.joinNotice_completionTags _
  · exact q.joinNotice_completionTags _
  all_goals
    split
    · exact hreplace _ _ _
    · exact q.joinNotice_completionTags _

/-- ATTENTION entries that leave are no completions. -/
theorem filterMap_tag_filter {keep : Entry → Bool} {es : List Entry} (h : ∀ e ∈ es, keep e = false → e.isNotice = true) :
    (es.filter keep).filterMap Entry.tag? = es.filterMap Entry.tag? := by
  rw [List.filterMap_filter]
  refine List.filterMap_congr fun e he => ?_
  cases hk : keep e with
  | true => rfl
  | false => exact (Entry.tag?_eq_none.2 (h e he hk)).symm

theorem OutboundQueue.unbook_completionTags (q : OutboundQueue) (fl : Option Byte) (slot : SlotNo) :
    (q.unbook fl slot).completionTags = q.completionTags := by
  refine filterMap_tag_filter fun e _ hk => ?_
  simp only [Bool.not_eq_false', Bool.and_eq_true] at hk
  exact Entry.isNotice_of_isAttention hk.2

theorem OutboundQueue.returned_completionTags (q : OutboundQueue) (n : Byte) :
    (q.returned n).completionTags = q.completionTags := by
  unfold OutboundQueue.returned
  split
  · refine filterMap_tag_filter fun e _ hk => ?_
    simp only [Bool.not_eq_false', Bool.and_eq_true] at hk
    exact Entry.isNotice_of_isAttention hk.1
  · rfl

theorem OutboundQueue.started_completionTags (q : OutboundQueue) : q.started.completionTags = q.completionTags := by
  unfold OutboundQueue.started OutboundQueue.transmitHead
  split
  next he =>
    simp only [OutboundQueue.completionTags_eq, he]
    rfl
  next => rfl

/-- The entry acknowledged takes its completion with it (R162). -/
theorem OutboundQueue.acked_completionTags {n : Byte} (hn : (q.entries.map Entry.seq).Nodup) :
    q.completionTags.Perm ((q.ackedTag n).toList ++ (q.acked n).completionTags) := by
  show (q.entries.filterMap Entry.tag?).Perm (_ ++ (q.entries.filter (fun e => decide (e.seq ≠ n))).filterMap Entry.tag?)
  have htag : q.ackedTag n = (q.entries.find? (fun e => decide (e.seq = n))).bind Entry.tag? := by
    unfold OutboundQueue.ackedTag
    cases q.entries.find? (fun e => decide (e.seq = n)) with
    | none => rfl
    | some e =>
      obtain ⟨m, b⟩ := e
      cases b <;> rfl
  rw [htag]
  cases hf : q.entries.find? (fun e => decide (e.seq = n)) with
  | none =>
    have hall : q.entries.filter (fun e => decide (e.seq ≠ n)) = q.entries :=
      List.filter_eq_self.2 fun e he => by simpa using List.find?_eq_none.1 hf e he
    rw [hall]
    exact List.Perm.refl _
  | some e =>
    obtain rfl : e.seq = n := by simpa using List.find?_some hf
    refine ((perm_cons_filter_key hn (List.mem_of_find?_eq_some hf)).filterMap Entry.tag?).trans ?_
    rw [List.filterMap_cons, Option.bind_some]
    cases e.tag? <;> exact List.Perm.refl _

end Sys2Proof.Machine
end

section
/-! PROOFS. The laws of the session records (R49, R63, R84, R85, R93, R147, R155, R156). -/

namespace Sys2Proof.Machine

variable {p q : Progress} {s t : State}

/-! ### The Session Table -/

/-- What a part does to the Session Table: it changes records, opens a session where there is room, or closes one. -/
inductive SessionStep (p q : Progress) (s t : State) : Prop
  | kept (f : Session → Session) (hhost : ∀ x, (f x).host = x.host) (hcls : ∀ x, (f x).cls = x.cls)
      (hs : t.sessions = s.sessions.map f) (hr : q.room = p.room)
  | opened (h : Addr) (seq : Byte) (replaced : Bool)
      (hs : t.sessions = s.sessions ++ [Session.opened h (s.panel.classOf h) seq replaced]) (h0 : h ≠ 0)
      (hnew : s.session? h = none) (hroom : p.room = true ∨ s.sessions.length < Config.maxSessions) (hr : q.room = false)
  | closed (h : Addr) (ht : t = s.purge h) (hx : (s.session? h).isSome = true)

theorem SessionStep.of_eq (hs : t.sessions = s.sessions) (hr : q.room = p.room) : SessionStep p q s t :=
  .kept id (fun _ => rfl) (fun _ => rfl) (hs.trans (List.map_id _).symm) hr

theorem SessionStep.of_mapSession {u : State} {h : Addr} {f : Session → Session} (hf : ∀ x, (f x).host = x.host)
    (hc : ∀ x, (f x).cls = x.cls) (hu : u.sessions = s.sessions) (hs : t.sessions = (u.mapSession h f).sessions)
    (hr : q.room = p.room) : SessionStep p q s t := by
  refine .kept (fun x => if x.host = h then f x else x) (fun x => ?_) (fun x => ?_) ?_ hr
  · split <;> simp [hf]
  · split <;> simp [hc]
  · rw [hs, State.mapSession, hu]

theorem SessionStep.of_answerWith {u : State} (h : Addr) (st : Status) (pl : List Byte) (c : Bool)
    (hu : u.sessions = s.sessions) (hs : t.sessions = (u.answerWith h st pl c).sessions) (hr : q.room = p.room) :
    SessionStep p q s t := by
  unfold State.answerWith at hs
  split at hs
  · exact .of_eq (hs.trans hu) hr
  · exact .of_mapSession (f := fun x => x.answered st pl) (fun _ => rfl) (fun _ => rfl) hu hs hr

/-- The ends of waits map the records, and leave every class. -/
theorem State.completeWaits_sessions_cls (o : Completion) (ws : List Wait) (s : State) :
    ∃ f : Session → Session, (∀ x, (f x).host = x.host) ∧ (∀ x, (f x).cls = x.cls) ∧
      (s.completeWaits o ws).sessions = s.sessions.map f := by
  induction ws generalizing s with
  | nil => exact ⟨id, fun _ => rfl, fun _ => rfl, (List.map_id _).symm⟩
  | cons w ws ih =>
    obtain ⟨f, hf, hc, he⟩ := ih (s.completeWait o w)
    refine ⟨fun x => f (if x.host = w.session then { x with out := x.out.handCompletion w.tag o } else x), fun x => ?_,
      fun x => ?_, ?_⟩
    · rw [hf]
      split <;> rfl
    · rw [hc]
      split <;> rfl
    · refine he.trans ?_
      rw [show (s.completeWait o w).sessions = s.sessions.map
        (fun x => if x.host = w.session then { x with out := x.out.handCompletion w.tag o } else x) from rfl, List.map_map]
      rfl

theorem State.purge_sessions (h : Addr) (s : State) :
    (s.purge h).sessions = s.sessions.filter (fun x => decide (x.host ≠ h)) := by
  rw [State.purge_eq]
  rfl

theorem Part.sessionStep (h : Part p s q t) : SessionStep p q s t := by
  have mapped {u : State} {k : Addr} {f : Session → Session} (hf : ∀ x, (f x).host = x.host) (hc : ∀ x, (f x).cls = x.cls)
      (hu : u.sessions = s.sessions) (hs : t.sessions = (u.mapSession k f).sessions) (hr : q.room = p.room) :
      SessionStep p q s t := .of_mapSession hf hc hu hs hr
  cases h with
  | quiet h hf => exact mapped hf.host hf.cls rfl rfl rfl
  | accept h seq kind => exact mapped (f := fun y => y.accept seq kind) (fun _ => rfl) (fun _ => rfl) rfl rfl rfl
  | answer st pl c => exact .of_answerWith _ st pl c rfl rfl rfl
  | openSession h seq replaced _ _ h0 hnew hroom => exact .opened h seq replaced rfl h0 hnew hroom rfl
  | purge h _ _ hx => exact .closed h rfl hx
  | @grantWait hd _ _ w =>
    exact mapped (u := s.addLease (s.newLease hd w.session w.hold w.term))
      (f := fun x => { x with out := x.out.handCompletion w.tag (.granted hd s.lm.nextToken w.term) })
      (fun _ => rfl) (fun _ => rfl) rfl rfl rfl
  | @defer x h a r =>
    exact mapped (u := if a.urgent then (s.addWait (s.newWait h a r)).markConflicts (s.newWait h a r)
      else s.addWait (s.newWait h a r)) (f := fun x => { x with tags := x.tags ++ [a.tag] }) (fun _ => rfl) (fun _ => rfl)
      (by simp) rfl rfl
  | cancel h tag =>
    exact mapped (u := s.dropWait h tag) (f := fun x => { x with tags := x.tags.filter (fun t => decide (t ≠ tag)) })
      (fun _ => rfl) (fun _ => rfl) rfl rfl rfl
  | completeWaits o ws =>
    obtain ⟨f, hf, hc, he⟩ := State.completeWaits_sessions_cls o ws s
    exact .kept f hf hc he rfl
  | handNotice h n =>
    exact mapped (f := fun x => { x with out := x.out.hand (s.flying h) n }) (fun _ => rfl) (fun _ => rfl) rfl rfl rfl
  | unbook h slot =>
    exact mapped (f := fun x => { x with out := x.out.unbook (s.flying h) slot }) (fun _ => rfl) (fun _ => rfl) rfl rfl rfl
  | presenceRise => exact .of_eq (by simp) rfl
  | @endAccess c h slot ch op reg discard pl =>
    cases discard with
    | true => exact .of_eq rfl rfl
    | false => exact .of_answerWith h .done pl false rfl rfl rfl
  | @refuseHead e rest st => exact .of_answerWith (u := s.setQueue rest) e.session st [] false rfl rfl rfl
  | acknowledge h seq => exact mapped (f := Session.acked seq) (fun _ => rfl) (fun _ => rfl) rfl rfl rfl
  | @startEntry x =>
    exact mapped (f := fun x => { x with out := x.out.started }) (fun _ => rfl) (fun _ => rfl) rfl rfl rfl
  | @responseEnded x r =>
    exact mapped (u := s.endTx) (f := fun x => { x with inFlight := false }) (fun _ => rfl) (fun _ => rfl) rfl rfl rfl
  | entryLost =>
    unfold State.entryLost
    split
    next a _ _ =>
      exact .of_mapSession (u := s.endTx) (f := fun x => { x with out := x.out.contend a.seq }) (fun _ => rfl)
        (fun _ => rfl) rfl rfl rfl
    next => exact .of_eq rfl rfl
  | tackExpiry =>
    unfold State.tackExpiry
    split
    next n _ d _ =>
      exact .of_mapSession (u := s.reach d) (f := Session.tackExpired s.panel.config.attempts n) (fun _ => rfl)
        (fun _ => rfl) rfl rfl rfl
    next => exact .of_eq rfl rfl
  | _ => exact .of_eq rfl rfl

/-- An end of an event leaves the sessions, or none. -/
theorem Ending.sessions_cases (h : Ending p s t) :
    (t.sessions = s.sessions ∧ t.lm = s.lm ∧ t.bookings = s.bookings ∧ t.delivery = s.delivery ∧ t.panel = s.panel ∧
      t.bp.queue.Sublist s.bp.queue) ∨
    (t.sessions = [] ∧ t.lm.leases = [] ∧ t.lm.waits = [] ∧ t.bookings = [] ∧ t.bp.queue = []) := by
  cases h with
  | linkClear | lineLow | powerOn => exact .inr ⟨rfl, rfl, rfl, rfl, rfl⟩
  | access _ _ _ hq => exact .inl ⟨rfl, rfl, rfl, rfl, rfl, hq ▸ List.sublist_cons_self _ _⟩
  | _ => exact .inl ⟨rfl, rfl, rfl, rfl, rfl, List.Sublist.refl _⟩

theorem State.session?_isSome {k : Addr} : (s.session? k).isSome = true ↔ ∃ x ∈ s.sessions, x.host = k := by
  simp [State.session?]

theorem State.session?_eq_none {k : Addr} : s.session? k = none ↔ ∀ x ∈ s.sessions, x.host ≠ k := by
  simp [State.session?]

/-- With distinct hosts a session of the host is the one that is found. -/
theorem SessionsDistinct.eq_of_mem (hi : SessionsDistinct s) {k : Addr} {x y : Session} (hx : s.session? k = some x)
    (hy : y ∈ s.sessions) (hk : y.host = k) : y = x :=
  eq_of_nodup_map hi.nodup hy (s.session?_mem hx) (hk.trans (s.session?_host hx).symm)

/-- At most 8 sessions, and less than 8 once one has been closed (R84, R90). -/
structure TablePhase (p : Progress) (s : State) : Prop where
  distinct : SessionsDistinct s
  room : p.room = true → s.sessions.length < Config.maxSessions

theorem Part.tablePhase (h : Part p s q t) (hi : TablePhase p s) : TablePhase q t := by
  obtain ⟨⟨hnodup, hsize, hzero⟩, hroom⟩ := hi
  cases h.sessionStep with
  | kept f hhost _ hs hr =>
    have hhosts : t.sessions.map Session.host = s.sessions.map Session.host := by
      rw [hs, List.map_map]
      exact List.map_congr_left fun x _ => hhost x
    have hlen : t.sessions.length = s.sessions.length := by rw [hs, List.length_map]
    refine ⟨⟨hhosts ▸ hnodup, hlen ▸ hsize, fun y hy => ?_⟩, by rw [hr, hlen]; exact hroom⟩
    rw [hs] at hy
    obtain ⟨x, hx, rfl⟩ := List.mem_map.1 hy
    rw [hhost]
    exact hzero x hx
  | opened k seq replaced hs h0 hnew hroom' hr =>
    have hfree : s.sessions.length < Config.maxSessions := hroom'.elim hroom id
    refine ⟨⟨?_, ?_, fun y hy => ?_⟩, by simp [hr]⟩
    · rw [hs, List.map_append]
      refine hnodup.append (List.nodup_singleton _) (List.disjoint_singleton.2 fun hm => ?_)
      obtain ⟨x, hx, he⟩ := List.mem_map.1 hm
      exact State.session?_eq_none.1 hnew x hx he
    · rw [hs, List.length_append]
      exact hfree
    · rw [hs] at hy
      rcases List.mem_append.1 hy with hy | hy
      · exact hzero y hy
      · rw [List.mem_singleton.1 hy]
        exact h0
  | closed k ht hx =>
    have hs := ht ▸ s.purge_sessions k
    obtain ⟨x, hx, hk⟩ := State.session?_isSome.1 hx
    refine ⟨⟨?_, ?_, fun y hy => ?_⟩, fun _ => ?_⟩
    · rw [hs]
      exact hnodup.sublist (List.filter_sublist.map _)
    · rw [hs]
      exact (List.length_filter_le _ _).trans hsize
    · rw [hs] at hy
      exact hzero y (List.mem_of_mem_filter hy)
    · rw [hs]
      exact (List.length_filter_lt_length_iff_exists.2 ⟨x, hx, by simpa using hk⟩).trans_le hsize

theorem Ending.sessionsDistinct (h : Ending p s t) (hi : SessionsDistinct s) : SessionsDistinct t := by
  rcases h.sessions_cases with ⟨hs, -⟩ | ⟨hs, -⟩
  · exact ⟨hs ▸ hi.nodup, hs ▸ hi.size, hs ▸ hi.nonzero⟩
  · exact ⟨by simp [hs], by simp [hs], by simp [hs]⟩

theorem Part.classLaw (h : Part p s q t) (hi : ClassLaw s) : ClassLaw t := by
  have hclass (k : Addr) : t.panel.classOf k = s.panel.classOf k := by rw [Panel.classOf, h.addresses.2, Panel.classOf]
  intro y hy
  rw [hclass]
  cases h.sessionStep with
  | kept f hhost hcls hs =>
    rw [hs] at hy
    obtain ⟨x, hx, rfl⟩ := List.mem_map.1 hy
    rw [hcls, hhost]
    exact hi x hx
  | opened k seq replaced hs =>
    rw [hs] at hy
    rcases List.mem_append.1 hy with hy | hy
    · exact hi y hy
    · rw [List.mem_singleton.1 hy]
      rfl
  | closed k ht =>
    rw [ht, State.purge_sessions] at hy
    exact hi y (List.mem_of_mem_filter hy)

theorem Ending.classLaw (h : Ending p s t) (hi : ClassLaw s) : ClassLaw t := by
  intro y hy
  rcases h.sessions_cases with ⟨hs, -, -, -, hp, -⟩ | ⟨hs, -⟩
  · rw [hp]
    exact hi y (hs ▸ hy)
  · rw [hs] at hy
    cases hy

/-- There is one manager address, so at most one MANAGER session (R85). -/
theorem ClassLaw.manager_unique (hc : ClassLaw s) (hd : SessionsDistinct s) {x y : Session} (hx : x ∈ s.sessions)
    (hy : y ∈ s.sessions) (hmx : x.cls = .manager) (hmy : y.cls = .manager) : x = y := by
  have haddr {z : Session} (hz : z ∈ s.sessions) (hm : z.cls = .manager) : z.host = s.panel.managerAddress := by
    have hcls := (hc z hz).symm.trans hm
    unfold Panel.classOf at hcls
    split at hcls
    next h => exact h.2
    next => cases hcls
  exact eq_of_nodup_map hd.nodup hx hy ((haddr hx hmx).trans (haddr hy hmy).symm)

/-! ### Records and their sessions -/

/-- Records whose sessions stay open stay owned. -/
theorem RecordsOwned.of_tables (hi : RecordsOwned s)
    (hup : ∀ k, (s.session? k).isSome = true → (t.session? k).isSome = true)
    (hl : ∀ l ∈ t.lm.leases, ∃ k ∈ s.lm.leases, l.holder = k.holder) (hw : t.lm.waits.Sublist s.lm.waits)
    (hb : ∀ b ∈ t.bookings, (t.session? b.session).isSome = true ∨ ∃ c ∈ s.bookings, b.session = c.session)
    (hq : t.bp.queue.Sublist s.bp.queue) : RecordsOwned t := by
  refine ⟨fun l h => ?_, fun w h => hup _ (hi.waits w (hw.subset h)), fun b h => ?_, fun e h => hup _ (hi.queue e (hq.subset h))⟩
  · obtain ⟨k, hk, he⟩ := hl l h
    rw [he]
    exact hup _ (hi.leases k hk)
  · rcases hb b h with h | ⟨c, hc, he⟩
    · exact h
    · rw [he]
      exact hup _ (hi.bookings c hc)

theorem RecordsOwned.congr (hi : RecordsOwned s)
    (hup : ∀ k, (s.session? k).isSome = true → (t.session? k).isSome = true)
    (hl : t.lm.leases = s.lm.leases) (hw : t.lm.waits.Sublist s.lm.waits) (hb : t.bookings = s.bookings)
    (hq : t.bp.queue.Sublist s.bp.queue) : RecordsOwned t :=
  hi.of_tables hup (hl ▸ fun l h => ⟨l, h, rfl⟩) hw (hb ▸ fun b h => .inr ⟨b, h, rfl⟩) hq

/-- A session that is open stays so, but for the one that is closed. -/
theorem SessionStep.stays_open (h : SessionStep p q s t) {k : Addr} (hk : (s.session? k).isSome = true) :
    (t.session? k).isSome = true ∨ ∃ j, t = s.purge j := by
  rw [State.session?_isSome] at hk ⊢
  obtain ⟨x, hx, rfl⟩ := hk
  cases h with
  | kept f hhost hcls hs => exact .inl ⟨f x, hs ▸ List.mem_map_of_mem hx, hhost x⟩
  | opened j seq replaced hs => exact .inl ⟨x, hs ▸ List.mem_append_left _ hx, rfl⟩
  | closed j ht => exact .inr ⟨j, ht⟩

/-- A close takes every record of its session with it (R92). -/
theorem RecordsOwned.purge (hi : RecordsOwned s) (k : Addr) : RecordsOwned (s.purge k) := by
  have hup (j : Addr) (hj : j ≠ k) (ho : (s.session? j).isSome = true) : ((s.purge k).session? j).isSome = true := by
    rwa [State.purge_session?, if_neg hj]
  have hpurge := State.purge_eq k s
  refine ⟨fun l hl => ?_, fun w hw => ?_, fun b hb => ?_, fun e he => ?_⟩
  · rw [hpurge] at hl
    obtain ⟨hl, hs⟩ := List.mem_filter.1 hl
    exact hup _ (State.sparedBy_holder hl hs) (hi.leases l hl)
  · rw [hpurge] at hw
    obtain ⟨hw, hs⟩ := List.mem_filter.1 hw
    exact hup _ (of_decide_eq_true hs) (hi.waits w hw)
  · rw [hpurge] at hb
    obtain ⟨hb, hs⟩ := List.mem_filter.1 hb
    exact hup _ (of_decide_eq_true hs) (hi.bookings b hb)
  · rw [hpurge] at he
    obtain ⟨he, hs⟩ := List.mem_filter.1 he
    exact hup _ (of_decide_eq_true hs) (hi.queue e he)

theorem Part.recordsOwned (h : Part p s q t) (hi : RecordsOwned s) : RecordsOwned t := by
  by_cases hclose : ∃ k, t = s.purge k
  · obtain ⟨k, rfl⟩ := hclose
    exact hi.purge k
  have hup (k : Addr) (hk : (s.session? k).isSome = true) : (t.session? k).isSome = true :=
    (h.sessionStep.stays_open hk).resolve_right hclose
  have same := List.Sublist.refl s.bp.queue
  cases h with
  | answer | tackExpiry | presenceRise | endAccess =>
    exact hi.congr hup (by simp) (by simp) (by simp) (by simp [State.freeBackplane])
  | entryLost => exact hi.congr hup (by simp) (by simp) (by simp) (by simp)
  | refuseHead _ _ hq =>
    exact hi.congr hup (by simp [State.setQueue]) (by simp [State.setQueue]) (by simp [State.setQueue])
      (by simp [State.setQueue, hq])
  | purge k => exact absurd ⟨k, rfl⟩ hclose
  | retire keep =>
    exact hi.of_tables hup (fun l hl => ⟨l, List.mem_of_mem_filter hl, rfl⟩) (List.Sublist.refl _)
      (fun b hb => .inr ⟨b, hb, rfl⟩) same
  | renew handle term =>
    refine hi.of_tables hup (fun l hl => ?_) (List.Sublist.refl _) (fun b hb => .inr ⟨b, hb, rfl⟩) same
    obtain ⟨k, hk, rfl⟩ := List.mem_map.1 hl
    exact ⟨k, hk, by split <;> rfl⟩
  | grant h c term _ _ _ _ _ hx =>
    refine ⟨fun l hl => ?_, hi.waits, hi.bookings, hi.queue⟩
    rcases List.mem_append.1 hl with hl | hl
    · exact hi.leases l hl
    · rw [List.mem_singleton.1 hl]
      exact hx
  | @grantWait hd kept rest w _ hw =>
    refine ⟨fun l hl => ?_, fun v hv => hup _ (hi.waits v ((sublist_without hw).subset hv)),
      fun b hb => hup _ (hi.bookings b hb), fun e he => hup _ (hi.queue e he)⟩
    rcases List.mem_append.1 hl with hl | hl
    · exact hup _ (hi.leases l hl)
    · rw [List.mem_singleton.1 hl]
      exact hup _ (hi.waits w (by simp [hw]))
  | @defer x h a r _ hx =>
    obtain ⟨f, hf, hls⟩ := State.deferred_leases a (s.newWait h a r) s
    refine ⟨fun l hl => ?_, fun w hw => ?_, fun b hb => hup _ (hi.bookings b (by simpa using hb)),
      fun e he => hup _ (hi.queue e (by simpa using he))⟩
    · obtain ⟨k, hk, rfl⟩ := List.mem_map.1 (hls ▸ hl)
      have hholder : (f k).holder = k.holder :=
        show (f k).sansState.holder = k.sansState.holder from congrArg Lease.holder (hf k)
      rw [hholder]
      exact hup _ (hi.leases k hk)
    · rcases mem_insertWait.1 (show w ∈ insertWait (s.newWait h a r) s.lm.waits by simpa using hw) with rfl | hw
      · exact hup h (by simp [hx])
      · exact hup _ (hi.waits w hw)
  | cancel => exact hi.congr hup rfl List.filter_sublist rfl same
  | completeWaits o ws =>
    exact hi.congr hup (State.completeWaits_leases o ws s) (State.completeWaits_lm o ws s).1 (by simp) (by simp)
  | putBooking h slot mode hx =>
    refine hi.of_tables hup (fun l hl => ⟨l, hl, rfl⟩) (List.Sublist.refl _) (fun b hb => ?_) same
    rcases List.mem_append.1 hb with hb | hb
    · exact .inr ⟨b, List.mem_of_mem_filter hb, rfl⟩
    · rw [List.mem_singleton.1 hb]
      exact .inl hx
  | rebook bs hb =>
    refine hi.of_tables hup (fun l hl => ⟨l, hl, rfl⟩) (List.Sublist.refl _) (fun b hbm => .inr ?_) same
    obtain ⟨c, hc, he⟩ := List.mem_map.1 (hb.subset (List.mem_map_of_mem hbm))
    exact ⟨c, hc, (congrArg Prod.fst he).symm⟩
  | @joinQueue e a _ _ hx =>
    refine ⟨hi.leases, hi.waits, hi.bookings, fun e' he => ?_⟩
    rcases List.mem_append.1 he with he | he
    · exact hi.queue e' he
    · rw [List.mem_singleton.1 he]
      exact hx
  | _ => exact hi.congr hup rfl (List.Sublist.refl _) rfl same

theorem Ending.recordsOwned (h : Ending p s t) (hi : RecordsOwned s) : RecordsOwned t := by
  rcases h.sessions_cases with ⟨hs, hlm, hb, -, -, hq⟩ | ⟨-, hl, hw, hb, hq⟩
  · exact hi.congr (fun k hk => by rwa [State.session?_isSome, hs, ← State.session?_isSome]) (by rw [hlm])
      (hlm ▸ List.Sublist.refl _) hb hq
  · exact ⟨by simp [hl], by simp [hw], by simp [hb], by simp [hq]⟩

end Sys2Proof.Machine
end

section
/-! PROOFS. Tags and queues (R49, R63, R147, R155, R156): of each session, its outstanding tags are those of its wait
records and of its completions, and its queue keeps its bounds. -/

namespace Sys2Proof.Machine

variable {p q : Progress} {s t : State}

/-! ### The tags of wait records -/

/-- The tags of a session's records among these. -/
def tagsOf (ws : List Wait) (h : Addr) : List Tag := (ws.filter (fun w => decide (w.session = h))).map Wait.tag

/-- The Wait Pool's key of a record (R49). -/
def Wait.key (w : Wait) : Addr × Tag := (w.session, w.tag)

theorem mem_tagsOf {ws : List Wait} {h : Addr} {tag : Tag} : tag ∈ tagsOf ws h ↔ (h, tag) ∈ ws.map Wait.key := by
  simp [tagsOf, Wait.key, and_assoc]

theorem tagsOf_perm {ws vs : List Wait} (hp : ws.Perm vs) (h : Addr) : (tagsOf ws h).Perm (tagsOf vs h) :=
  (hp.filter _).map _

theorem tagsOf_cons_same {w : Wait} (ws : List Wait) {h : Addr} (hw : w.session = h) :
    tagsOf (w :: ws) h = w.tag :: tagsOf ws h := by
  simp [tagsOf, hw]

theorem tagsOf_cons_other {w : Wait} (ws : List Wait) {h : Addr} (hw : w.session ≠ h) :
    tagsOf (w :: ws) h = tagsOf ws h := by
  simp [tagsOf, hw]

/-- Removing the records of other sessions leaves a session's tags. -/
theorem tagsOf_filter {keep : Wait → Bool} {ws : List Wait} {h : Addr} (hk : ∀ w ∈ ws, w.session = h → keep w = true) :
    tagsOf (ws.filter keep) h = tagsOf ws h := by
  rw [tagsOf, tagsOf, List.filter_filter]
  congr 1
  refine List.filter_congr fun w hw => ?_
  by_cases hh : w.session = h
  · simp [hh, hk w hw hh]
  · simp [hh]

/-- The pool without the one record of this session and tag. -/
theorem State.dropWait_perm (hd : WaitsDistinct s) {w : Wait} (hw : w ∈ s.lm.waits) :
    s.lm.waits.Perm (w :: (s.dropWait w.session w.tag).lm.waits) := by
  refine (perm_cons_filter_key (key := Wait.key) hd hw).trans (List.Perm.of_eq ?_)
  congr 1
  refine List.filter_congr fun v _ => ?_
  rw [← Bool.decide_and, ← decide_not]
  exact decide_eq_decide.2 (not_congr Prod.ext_iff)

/-! ### One session -/

/-- What the laws say of one session, given the Wait Pool and its entry in flight. -/
structure SessionOk (ws : List Wait) (fl : Option Byte) (x : Session) : Prop where
  tags : x.tags.Perm (tagsOf ws x.host ++ x.out.completionTags)
  nodup : x.tags.Nodup
  few : x.tags.length ≤ Config.maxTags
  queue : QueueOk fl x.out

/-- What the laws say of every session. -/
def SessionsOk (s : State) : Prop := ∀ x ∈ s.sessions, SessionOk s.lm.waits (s.flying x.host) x

theorem sessionsOk_iff : SessionsOk s ↔ TagLaw s ∧ QueueLaw s := by
  constructor
  · intro h
    exact ⟨fun x hx => ⟨(h x hx).tags, (h x hx).nodup, (h x hx).few⟩, fun x hx => (h x hx).queue.notices,
      fun x hx => (h x hx).queue.numbers, fun x hx => (h x hx).queue.attention⟩
  · rintro ⟨ht, hn, hs, ha⟩ x hx
    obtain ⟨h1, h2, h3⟩ := ht x hx
    exact ⟨h1, h2, h3, hn x hx, hs x hx, ha x hx⟩

variable {ws ws' : List Wait} {fl fl' : Option Byte} {x y : Session}

theorem SessionOk.congr (h : SessionOk ws fl x) (hh : y.host = x.host) (ht : y.tags = x.tags)
    (he : y.out.entries = x.out.entries) (hw : (tagsOf ws' x.host).Perm (tagsOf ws x.host)) : SessionOk ws' fl y := by
  refine ⟨?_, ht ▸ h.nodup, ht ▸ h.few, h.queue.congr he⟩
  rw [ht, hh, OutboundQueue.completionTags_eq, he]
  exact h.tags.trans (hw.symm.append_right _)

/-- An operation on the queue that leaves the completions. -/
theorem SessionOk.withQueue (h : SessionOk ws fl x) {o : OutboundQueue} (ho : QueueOk fl' o)
    (hc : o.completionTags = x.out.completionTags) : SessionOk ws fl' { x with out := o } :=
  ⟨hc ▸ h.tags, h.nodup, h.few, ho⟩

/-- At most 8 notices and 4 completions: a number is free for one more (R63, R147, R156). -/
theorem SessionOk.length_lt (h : SessionOk ws fl x) : x.out.entries.length < 256 := by
  have hsplit : x.out.entries.length = x.out.notices + x.out.completionTags.length := by
    rw [OutboundQueue.notices, OutboundQueue.completionTags_eq]
    induction x.out.entries with
    | nil => rfl
    | cons e es ih =>
      cases ht : e.tag? with
      | none =>
        simp only [List.length_cons, List.countP_cons, Entry.tag?_eq_none.1 ht, List.filterMap_cons_none ht, ih, if_true]
        omega
      | some tag =>
        have hn : e.isNotice = false := by
          cases hn : e.isNotice with
          | false => rfl
          | true => simp [Entry.tag?_eq_none.2 hn] at ht
        simp only [List.length_cons, List.countP_cons, hn, List.filterMap_cons_some ht, ih, Bool.false_eq_true, if_false]
        omega
  have hlen := h.tags.length_eq
  have hnotices := h.queue.notices
  have hfew := h.few
  rw [List.length_append] at hlen
  simp only [Config.maxNotices, Config.maxTags] at hnotices hfew
  omega

theorem SessionOk.hand (h : SessionOk ws fl x) (n : Notice) : SessionOk ws fl { x with out := x.out.hand fl n } :=
  h.withQueue (h.queue.hand h.length_lt n) (x.out.hand_completionTags fl n)

/-- A wait ends: its record's tag becomes a completion's (R62, R63). -/
theorem SessionOk.handCompletion (h : SessionOk ws fl x) {tag : Tag} (o : Completion)
    (hw : (tagsOf ws x.host).Perm (tag :: tagsOf ws' x.host)) :
    SessionOk ws' fl { x with out := x.out.handCompletion tag o } := by
  have hcomp : (x.out.handCompletion tag o).completionTags = x.out.completionTags ++ [tag] :=
    OutboundQueue.push_completionTags _ _
  refine ⟨?_, h.nodup, h.few, h.queue.push h.length_lt _ (fun _ _ he => nomatch he) fun _ _ he => nomatch he⟩
  show x.tags.Perm (tagsOf ws' x.host ++ (x.out.handCompletion tag o).completionTags)
  rw [hcomp, ← List.append_assoc]
  exact (h.tags.trans (hw.append_right _)).trans (List.perm_append_singleton _ _).symm

/-- A deferred ACQUIRE: record and tag (R47). -/
theorem SessionOk.defer (h : SessionOk ws fl x) {w : Wait} (hw : w.session = x.host) (hfresh : w.tag ∉ x.tags)
    (hroom : x.tags.length < Config.maxTags) :
    SessionOk (insertWait w ws) fl { x with tags := x.tags ++ [w.tag] } := by
  refine ⟨?_, h.nodup.append (List.nodup_singleton _) (List.disjoint_singleton.2 hfresh), ?_, h.queue⟩
  · have hpool : (tagsOf (insertWait w ws) x.host).Perm (w.tag :: tagsOf ws x.host) :=
      tagsOf_cons_same ws hw ▸ tagsOf_perm (insertWait_perm w ws) x.host
    exact (List.perm_append_singleton _ _).trans ((h.tags.cons _).trans (hpool.symm.append_right _))
  · rw [List.length_append]
    exact hroom

/-- A cancelled wait: record and tag go (R61). -/
theorem SessionOk.cancel (h : SessionOk ws fl x) {tag : Tag} (hw : (tagsOf ws x.host).Perm (tag :: tagsOf ws' x.host)) :
    SessionOk ws' fl { x with tags := x.tags.filter (fun t => decide (t ≠ tag)) } :=
  ⟨perm_filter_ne h.nodup (h.tags.trans (hw.append_right _)), h.nodup.filter _,
    (List.length_filter_le _ _).trans h.few, h.queue⟩

/-- The entry in flight is acknowledged; a completion frees its tag (R162). -/
theorem SessionOk.acked {n : Byte} (h : SessionOk ws (some n) x) : SessionOk ws none (x.acked n) := by
  have hperm := OutboundQueue.acked_completionTags (n := n) h.queue.numbers
  have hqueue : QueueOk none (x.acked n).out := h.queue.acked
  cases htag : x.out.ackedTag n with
  | none =>
    have htags : (x.acked n).tags = x.tags := by simp only [Session.acked, htag]
    rw [htag] at hperm
    exact ⟨htags ▸ h.tags.trans (hperm.append_left _), htags ▸ h.nodup, htags ▸ h.few, hqueue⟩
  | some tag =>
    have htags : (x.acked n).tags = x.tags.filter (fun t => decide (t ≠ tag)) := by simp only [Session.acked, htag]
    rw [htag] at hperm
    refine ⟨?_, htags ▸ h.nodup.filter _, htags ▸ (List.length_filter_le _ _).trans h.few, hqueue⟩
    rw [htags]
    refine perm_filter_ne h.nodup (h.tags.trans ((hperm.append_left _).trans ?_))
    exact List.perm_middle

/-! ### All sessions -/

/-- A change of one session's record, and of what concerns it alone. -/
theorem SessionsOk.mapSession (hi : SessionsOk s) {h : Addr} {f : Session → Session} (hf : ∀ x, (f x).host = x.host)
    (hs : t.sessions = (s.mapSession h f).sessions)
    (hw : ∀ k, k ≠ h → (tagsOf t.lm.waits k).Perm (tagsOf s.lm.waits k))
    (hfly : ∀ k, k ≠ h → t.flying k = s.flying k)
    (hself : ∀ x ∈ s.sessions, x.host = h → SessionOk s.lm.waits (s.flying h) x →
      SessionOk t.lm.waits (t.flying h) (f x)) : SessionsOk t := by
  intro y hy
  rw [hs] at hy
  obtain ⟨x, hx, rfl⟩ := List.mem_map.1 hy
  by_cases hh : x.host = h
  · rw [if_pos hh, hf, hh]
    exact hself x hx hh (hh ▸ hi x hx)
  · rw [if_neg hh, hfly _ hh]
    exact (hi x hx).congr rfl rfl rfl (hw _ hh)

/-- A change of one session's queue, in a state with the same Wait Pool and attempt. -/
theorem SessionsOk.mapQueue (hi : SessionsOk s) {h : Addr} {f : OutboundQueue → OutboundQueue}
    (hf : ∀ x, SessionOk s.lm.waits (s.flying h) x → SessionOk s.lm.waits (s.flying h) { x with out := f x.out }) :
    SessionsOk (s.mapQueue h f) :=
  hi.mapSession (f := fun x => { x with out := f x.out }) (fun _ => rfl) rfl (fun _ _ => .refl _) (fun _ _ => rfl)
    fun x _ _ hx => hf x hx

theorem SessionsOk.quiet (hi : SessionsOk s) (h : Addr) {f : Session → Session} (hf : ∀ x, (f x).host = x.host)
    (ht : ∀ x, (f x).tags = x.tags) (he : ∀ x, (f x).out.entries = x.out.entries) : SessionsOk (s.mapSession h f) :=
  hi.mapSession hf rfl (fun _ _ => .refl _) (fun _ _ => rfl) fun x _ _ hx => hx.congr (hf x) (ht x) (he x) (.refl _)

theorem SessionsOk.congr (hi : SessionsOk s) (hs : t.sessions = s.sessions) (hw : t.lm.waits = s.lm.waits)
    (hd : t.delivery.attempt = s.delivery.attempt) : SessionsOk t := by
  intro x hx
  rw [hw, State.flying_congr hd]
  exact hi x (hs ▸ hx)

theorem SessionsOk.answerWith (hi : SessionsOk s) (h : Addr) (st : Status) (pl : List Byte) (c : Bool) :
    SessionsOk (s.answerWith h st pl c) := by
  unfold State.answerWith
  split
  · exact hi
  · exact (hi.quiet h (f := fun x => x.answered st pl) (fun _ => rfl) (fun _ => rfl) fun _ => rfl).congr rfl rfl rfl

/-- A wait ends in the pool and joins the queue. -/
theorem SessionsOk.completeWait (hi : SessionsOk s) (hd : WaitsDistinct s) (o : Completion) {w : Wait}
    (hw : w ∈ s.lm.waits) : SessionsOk (s.completeWait o w) := by
  have hperm := State.dropWait_perm hd hw
  refine hi.mapSession (h := w.session) (f := fun x => { x with out := x.out.handCompletion w.tag o }) (fun _ => rfl) rfl
    (fun k hk => ?_) (fun _ _ => rfl) fun x _ hx hok => hok.handCompletion o ?_
  · have := tagsOf_perm hperm k
    rw [tagsOf_cons_other _ (fun e => hk e.symm)] at this
    exact this.symm
  · have := tagsOf_perm hperm x.host
    rwa [tagsOf_cons_same _ hx.symm] at this

theorem WaitsDistinct.sublist (hd : WaitsDistinct s) (hs : t.lm.waits.Sublist s.lm.waits) : WaitsDistinct t :=
  List.Nodup.sublist (hs.map _) hd

theorem SessionsOk.completeWaits (hi : SessionsOk s) (hd : WaitsDistinct s) (o : Completion) {ws : List Wait}
    (hs : ws.Sublist s.lm.waits) : SessionsOk (s.completeWaits o ws) := by
  induction ws generalizing s with
  | nil => exact hi
  | cons w ws ih =>
    have hw : w ∈ s.lm.waits := hs.subset List.mem_cons_self
    have hkeys : ((w :: ws).map Wait.key).Nodup := List.Nodup.sublist (hs.map _) hd
    have hsub : (s.completeWait o w).lm.waits.Sublist s.lm.waits := List.filter_sublist
    refine ih (hi.completeWait hd o hw) (hd.sublist hsub) ?_
    have hkept : ws.filter (fun v => !(decide (v.session = w.session) && decide (v.tag = w.tag))) = ws := by
      refine List.filter_eq_self.2 fun v hv => ?_
      have hne : v.key ≠ w.key := fun he => (List.nodup_cons.1 hkeys).1 (he ▸ List.mem_map_of_mem hv)
      rw [← Bool.decide_and, ← decide_not]
      exact decide_eq_true fun h => hne (Prod.ext h.1 h.2)
    rw [← hkept]
    exact ((List.sublist_cons_self w ws).trans hs).filter _

/-! ### The phase -/

/-- Everything that the laws of the session records say, within an event. -/
structure SessionPhase (p : Progress) (s : State) : Prop where
  table : TablePhase p s
  owned : RecordsOwned s
  ok : SessionsOk s
  waits : WaitsDistinct s
  cls : ClassLaw s

theorem Part.waitsDistinct (h : Part p s q t) (hi : SessionPhase p s) : WaitsDistinct t := by
  have hd := hi.waits
  have same {u : State} (hw : u.lm.waits = s.lm.waits) : WaitsDistinct u := hd.sublist (hw ▸ List.Sublist.refl _)
  cases h with
  | answer | refuseHead | tackExpiry | presenceRise | endAccess => exact same (by simp [State.setQueue])
  | entryLost => exact same (by simp)
  | purge => exact hd.sublist (by rw [State.purge_eq]; exact List.filter_sublist)
  | grantWait _ hw => exact hd.sublist (sublist_without hw)
  | @defer x h a r _ hx _ _ hfresh =>
    have hwaits : ((if a.urgent then (s.addWait (s.newWait h a r)).markConflicts (s.newWait h a r)
        else s.addWait (s.newWait h a r)).mapSession h (fun x => { x with tags := x.tags ++ [a.tag] })).lm.waits =
          insertWait (s.newWait h a r) s.lm.waits := by simp
    rw [WaitsDistinct, hwaits, ((insertWait_perm _ _).map _).nodup_iff, List.map_cons, List.nodup_cons]
    refine ⟨fun hm => hfresh ?_, hd⟩
    have hxh : x.host = h := s.session?_host hx
    have htag : a.tag ∈ tagsOf s.lm.waits x.host := mem_tagsOf.2 (hxh ▸ hm)
    exact (hi.ok x (s.session?_mem hx)).tags.mem_iff.2 (List.mem_append_left _ htag)
  | cancel => exact hd.sublist List.filter_sublist
  | completeWaits o ws => exact hd.sublist (State.completeWaits_lm o ws s).1
  | _ => exact same rfl

/-- The session's attempt ends, and its queue takes the entry back. -/
theorem SessionsOk.returned (hi : SessionsOk s) {a : Attempt} (ha : s.delivery.attempt = some a) {f : Session → Session}
    (hf : ∀ x, (f x).host = x.host) (htags : ∀ x, (f x).tags = x.tags)
    (hout : ∀ x, (f x).out.entries = (x.out.returned a.seq).entries) (hs : t.sessions = (s.mapSession a.host f).sessions)
    (hw : t.lm.waits = s.lm.waits) (hd : t.delivery.attempt = none) : SessionsOk t := by
  refine hi.mapSession hf hs (fun k _ => by rw [hw]) (fun k hk => ?_) fun x _ _ hx => ?_
  · rw [State.flying_of_no_attempt hd, State.flying, ha]
    exact (if_neg fun e => hk e.symm).symm
  · have hfly : s.flying a.host = some a.seq := State.flying_eq_some.2 ⟨a, ha, rfl, rfl⟩
    rw [hfly] at hx
    rw [State.flying_of_no_attempt hd, hw]
    exact (hx.withQueue hx.queue.returned (x.out.returned_completionTags a.seq)).congr (hf x) (htags x) (hout x) (.refl _)

theorem Part.sessionsOk (h : Part p s q t) (hi : SessionPhase p s) : SessionsOk t := by
  have hok := hi.ok
  cases h with
  | quiet h hf => exact hok.quiet h hf.host hf.tags hf.entries
  | accept h seq kind => exact hok.quiet h (f := fun y => y.accept seq kind) (fun _ => rfl) (fun _ => rfl) fun _ => rfl
  | answer => exact hok.answerWith _ _ _ _
  | @refuseHead e rest =>
    have hqueue : SessionsOk (s.setQueue rest) := hok.congr rfl rfl rfl
    exact hqueue.answerWith _ _ _ _
  | @endAccess c h slot ch op reg discard pl =>
    cases discard with
    | true => exact hok.congr rfl rfl rfl
    | false => exact (hok.answerWith h .done pl false).congr rfl rfl rfl
  | openSession h seq replaced _ _ _ hnew =>
    intro y hy
    rcases List.mem_append.1 hy with hy | hy
    · exact hok y hy
    · obtain rfl := List.mem_singleton.1 hy
      have hno : tagsOf s.lm.waits h = [] := by
        refine List.map_eq_nil_iff.2 (List.filter_eq_nil_iff.2 fun w hw hh => ?_)
        have hopen := hi.owned.waits w hw
        rw [of_decide_eq_true hh, hnew] at hopen
        cases hopen
      have htags : (tagsOf s.lm.waits h ++ OutboundQueue.opened.completionTags) = [] := by rw [hno]; rfl
      exact ⟨List.Perm.of_eq htags.symm, List.nodup_nil, Nat.zero_le _, Nat.zero_le _, List.nodup_nil, fun _ => Nat.zero_le _⟩
  | purge h =>
    rw [State.purge_eq]
    intro x hx
    obtain ⟨hx, hne⟩ := List.mem_filter.1 hx
    have hne : x.host ≠ h := of_decide_eq_true hne
    have hfly : ((s.keepLeases (s.sparedBy h)).setWaits (s.lm.waits.filter (fun w => decide (w.session ≠ h))) |>.shed
        h).flying x.host = s.flying x.host := by
      simp only [State.flying, State.shed, State.setWaits, State.keepLeases, Delivery.close]
      cases s.delivery.attempt with
      | none => rfl
      | some a =>
        by_cases ha : a.host = h
        · have hno : ¬ h = x.host := fun e => hne e.symm
          simp [ha, hno]
        · simp [ha]
    rw [hfly]
    refine (hok x hx).congr rfl rfl rfl (List.Perm.of_eq (tagsOf_filter fun w _ hw => ?_))
    exact decide_eq_true (hw ▸ hne)
  | @grantWait hd kept rest w _ hw =>
    refine hok.mapSession (h := w.session)
      (f := fun x => { x with out := x.out.handCompletion w.tag (.granted hd s.lm.nextToken w.term) }) (fun _ => rfl) rfl
      (fun k hk => ?_) (fun _ _ => rfl) fun x _ hx hxok => hxok.handCompletion _ ?_
    all_goals
      have hperm : s.lm.waits.Perm (w :: (kept ++ rest)) := hw ▸ List.perm_middle
    · have := tagsOf_perm hperm k
      rw [tagsOf_cons_other _ (fun e => hk e.symm)] at this
      exact this.symm
    · have := tagsOf_perm hperm x.host
      rwa [tagsOf_cons_same _ hx.symm] at this
  | @defer x h a r _ hx _ _ hfresh hroom =>
    refine hok.mapSession (h := h) (f := fun x => { x with tags := x.tags ++ [a.tag] }) (fun _ => rfl)
      (by simp [State.mapSession]) (fun k hk => ?_) (fun k _ => State.flying_congr (by simp) k) fun y hy hyh hyok => ?_
    all_goals
      simp only [State.mapSession_frame, State.deferred_frame]
    · have := tagsOf_perm (insertWait_perm (s.newWait h a r) s.lm.waits) k
      rwa [tagsOf_cons_other _ (fun e => hk e.symm)] at this
    · obtain rfl := hi.table.distinct.eq_of_mem hx hy hyh
      rw [State.flying_congr (t := State.mapSession _ _ _) (s := s) (by simp)]
      exact hyok.defer (w := s.newWait h a r) hyh.symm hfresh hroom
  | @cancel h tag hw =>
    obtain ⟨w, hwm, rfl, rfl⟩ := hw
    have hperm := State.dropWait_perm hi.waits hwm
    refine hok.mapSession (h := w.session) (f := fun x => { x with tags := x.tags.filter (fun t => decide (t ≠ w.tag)) })
      (fun _ => rfl) rfl (fun k hk => ?_) (fun _ _ => rfl) fun x _ hx hxok => hxok.cancel ?_
    · have := tagsOf_perm hperm k
      rw [tagsOf_cons_other _ (fun e => hk e.symm)] at this
      exact this.symm
    · have := tagsOf_perm hperm x.host
      rwa [tagsOf_cons_same _ hx.symm] at this
  | completeWaits o ws hs => exact hok.completeWaits hi.waits o hs
  | handNotice h n => exact hok.mapQueue fun x hx => hx.hand n
  | unbook h slot =>
    exact hok.mapQueue fun x hx => hx.withQueue (hx.queue.unbook slot) (x.out.unbook_completionTags _ slot)
  | acknowledge h n hf =>
    refine hok.mapSession (h := h) (f := Session.acked n) (fun _ => rfl) rfl (fun _ _ => .refl _) (fun k hk => ?_)
      fun x _ _ hx => ?_
    · obtain ⟨a, ha, rfl, -⟩ := State.flying_eq_some.1 hf
      rw [State.flying_of_no_attempt rfl, State.flying, ha]
      exact (if_neg fun e => hk e.symm).symm
    · rw [State.flying_of_no_attempt rfl]
      exact (hf ▸ hx).acked
  | @startEntry x e rest hm ha =>
    refine hok.mapSession (h := x.host) (f := fun x => { x with out := x.out.started }) (fun _ => rfl) rfl
      (fun _ _ => .refl _) (fun k hk => ?_) fun y _ _ hy => ?_
    · have hno : ¬ x.host = k := fun e => hk e.symm
      simp [State.flying, State.startEntry, ha, hno]
    · have hfly : (s.startEntry x.host e).flying x.host = some e.seq := by simp [State.flying, State.startEntry]
      rw [hfly]
      rw [State.flying_of_no_attempt ha] at hy
      exact hy.withQueue (hy.queue.started.flies e.seq) y.out.started_completionTags
  | @responseEnded x r =>
    exact (hok.quiet r.host (f := fun x => { x with inFlight := false }) (fun _ => rfl) (fun _ => rfl) fun _ => rfl).congr
      rfl rfl rfl
  | @entryEnded x h n o =>
    intro x hx
    have hfly : (s.endTx.entryEnded h o).flying x.host = s.flying x.host := by
      simp only [State.flying, State.entryEnded]
      cases o <;> simp only [Bool.false_eq_true, if_false, if_true] <;> cases hd : s.delivery.attempt <;>
        simp [State.endTx, hd, Attempt.await]
    rw [hfly]
    exact hok x hx
  | @entryLost x h n o =>
    unfold State.entryLost
    split
    next a ha _ =>
      exact SessionsOk.returned (s := s) hok (a := a) ha (f := fun x => { x with out := x.out.contend a.seq }) (fun _ => rfl)
        (fun _ => rfl) (fun _ => rfl) rfl rfl rfl
    next => exact hok.congr rfl rfl rfl
  | tackExpiry =>
    unfold State.tackExpiry
    split
    next h n ta d ha =>
      exact SessionsOk.returned (s := s) hok ha (f := Session.tackExpired s.panel.config.attempts n) (fun _ => rfl)
        (fun _ => rfl) (fun _ => rfl) rfl rfl rfl
    next => exact hok
  | presenceRise => exact hok.congr (by simp) (by simp) (by simp)
  | _ => exact hok.congr rfl rfl rfl

theorem Part.sessionPhase (h : Part p s q t) (hi : SessionPhase p s) : SessionPhase q t :=
  ⟨h.tablePhase hi.table, h.recordsOwned hi.owned, h.sessionsOk hi, h.waitsDistinct hi, h.classLaw hi.cls⟩

theorem Ending.sessionsOk (h : Ending p s t) (hi : SessionsOk s) : SessionsOk t := by
  rcases h.sessions_cases with ⟨hs, hlm, -, hd, -, -⟩ | ⟨hs, -⟩
  · exact hi.congr hs (by rw [hlm]) (by rw [hd])
  · intro x hx
    rw [hs] at hx
    cases hx

theorem Ending.waitsDistinct (h : Ending p s t) (hi : WaitsDistinct s) : WaitsDistinct t := by
  rcases h.sessions_cases with ⟨-, hlm, -⟩ | ⟨-, -, hw, -⟩
  · exact hi.sublist (hlm ▸ List.Sublist.refl _)
  · exact hi.sublist (hw ▸ List.nil_sublist _)

theorem Ending.sessionPhase (h : Ending p s t) (hi : SessionPhase p s) : SessionPhase .start t :=
  ⟨⟨h.sessionsDistinct hi.table.distinct, fun hr => nomatch hr⟩, h.recordsOwned hi.owned, h.sessionsOk hi.ok,
    h.waitsDistinct hi.waits, h.classLaw hi.cls⟩

/-- Settles O50: every part keeps the tables, and each session's tags and queue. -/
theorem stepKeepsSessionLaws : Obligations.StepKeepsSessionLaws := by
  intro s t hd ho ht hq hw hc h
  obtain ⟨⟨hd', -⟩, ho', hok', hw', hc'⟩ := step_keeps (I := SessionPhase) Part.sessionPhase Ending.sessionPhase h
    ⟨⟨hd, fun hr => nomatch hr⟩, ho, sessionsOk_iff.2 ⟨ht, hq⟩, hw, hc⟩
  obtain ⟨ht', hq'⟩ := sessionsOk_iff.1 hok'
  exact ⟨hd', ho', ht', hq', hw', hc', fun x hx y hy => hc'.manager_unique hd' hx hy⟩

end Sys2Proof.Machine
end

section
/-! PROOFS. Accesses and the leases that they name (R26, R126, R131): while the token counter has not come to the end of its
range, every token of a lease or of a queued access is a past one. -/

namespace Sys2Proof.Machine

variable {p q : Progress} {s t : State}

/-! ### Tokens -/

/-- While every lease's token is a past one, the next token is the counter's value. -/
theorem LeaseManager.nextToken_eq {m : LeaseManager} (h : ∀ l ∈ m.leases, l.token.toNat < m.tokenCounter.toNat) :
    m.nextToken = m.tokenCounter := by
  have hfree : m.leases.any (fun l => decide (l.token = m.tokenCounter)) = false :=
    List.any_eq_false.2 fun l hl he => absurd (h l hl) (by rw [of_decide_eq_true he]; exact lt_irrefl _)
  unfold LeaseManager.nextToken
  cases m.leases.length with
  | zero => rfl
  | succ n => simp only [freeToken, hfree, Bool.false_eq_true, if_false]

/-- Before the end of its range the counter advances by one. -/
theorem advanceToken_succ {c : Token} (h : c.toNat + 1 < 4294967296) : (advanceToken c).toNat = c.toNat + 1 := by
  have hne : c ≠ 0xFFFFFFFF := by
    rintro rfl
    exact absurd h (by decide)
  have hone : (1 : Token).toNat = 1 := by decide
  rw [advanceToken, if_neg hne, BitVec.toNat_add, hone]
  exact Nat.mod_eq_of_lt h

/-! ### Arrivals -/

/-- The arrival checks pass an access that a live lease permits (R126). -/
theorem State.accessChecks_ok {h : Addr} {a : AccessFields} {e : AccessEntry} (hok : s.accessChecks h a = .ok e) :
    ∃ l ∈ s.lm.leases, l.holder = h ∧ l.handle = e.handle ∧ l.token = e.token ∧ Permits s l e.slot e.channel e.op := by
  unfold State.accessChecks at hok
  split at hok
  · cases hok
  · split at hok
    · cases hok
    next l hl =>
      split at hok
      · cases hok
      next c hc =>
        split_ifs at hok with hcontains hmode
        cases hok
        have hkey := List.find?_some hl
        simp only [Bool.and_eq_true, decide_eq_true_eq] at hkey
        refine ⟨l, List.mem_of_find?_eq_some hl, hkey.2, rfl, rfl, rfl, by simpa using hcontains, fun hw => ?_⟩
        by_contra hm
        exact hmode ⟨hw, hm⟩

/-- What a part can do to the Access Queue: entries leave, or one that has passed the arrival checks joins. -/
theorem Part.queue_cases (h : Part p s q t) : t.bp.queue.Sublist s.bp.queue ∨
    ∃ e a, t = s.setQueue (s.bp.queue ++ [e]) ∧ s.accessChecks e.session a = .ok e := by
  cases h with
  | answer | tackExpiry | presenceRise | completeWaits | defer | endAccess =>
    exact .inl (by simp [State.freeBackplane])
  | entryLost => exact .inl (by simp)
  | refuseHead _ _ hq => exact .inl (by simp [State.setQueue, hq])
  | purge => rw [State.purge_eq]; exact .inl List.filter_sublist
  | @joinQueue e a _ _ _ he => exact .inr ⟨e, a, rfl, he⟩
  | _ => exact .inl (List.Sublist.refl _)

/-! ### The law -/

/-- A lease that stays as it is permits what it did, while its slot keeps its channels. -/
theorem Permits.of_same {l k : Lease} {slot : SlotNo} {ch : ChannelNo} {op : Operation} (h : Permits s l slot ch op)
    (hk : k.Same l) (hslot : (t.slots[slot]).state = (s.slots[slot]).state) : Permits t k slot ch op := by
  refine ⟨hk.resource ▸ h.slot_eq, ?_, fun hw => hk.mode ▸ h.writes hw⟩
  rw [hk.resource, hslot]
  exact h.contains

/-- The access law within an event. As long as nothing has been granted, 64 tokens are left; then at least one for each free
handle. -/
structure AccessPhase (p : Progress) (s : State) : Prop where
  handles : HandlesDistinct s
  valid : ResourcesValid s
  access : AccessLaw s
  budget : s.lm.tokenCounter.toNat + 64 < 4294967296 + if p.granted = true then s.lm.leases.length else 0

/-- A part that leaves the grants does not say that one may have been made, but for a note. -/
theorem Part.granted_cases (h : Part p s q t) : q.granted = p.granted ∨ (p.granted = false ∧ t = s) := by
  cases h with
  | note =>
    cases hg : p.granted with
    | true => exact .inl (by simp)
    | false => exact .inr ⟨rfl, rfl⟩
  | _ => exact .inl rfl

/-- A lease of the old table stands for each of the new one, unless it has just been granted. -/
theorem TableStep.budget (h : TableStep p s t) (hd : HandlesDistinct t)
    (hb : s.lm.tokenCounter.toNat + 64 < 4294967296 + if p.granted = true then s.lm.leases.length else 0)
    (hpast : ∀ l ∈ s.lm.leases, l.token.toNat < s.lm.tokenCounter.toNat) :
    (t.lm.tokenCounter.toNat + 64 < 4294967296 + if p.granted = true then t.lm.leases.length else 0) ∧
    s.lm.tokenCounter.toNat ≤ t.lm.tokenCounter.toNat ∧
    ∀ l ∈ t.lm.leases, l.token.toNat < t.lm.tokenCounter.toNat := by
  cases h with
  | rewrite f hf hl hc =>
    rw [hl, hc, List.length_map]
    refine ⟨hb, le_rfl, fun l hl' => ?_⟩
    obtain ⟨k, hk, rfl⟩ := List.mem_map.1 hl'
    rw [(hf k).token]
    exact hpast k hk
  | fewer hg hl hc =>
    rw [hc]
    simp only [hg, Bool.false_eq_true, if_false] at hb ⊢
    exact ⟨hb, le_rfl, fun l h => hpast l (hl.subset h)⟩
  | grant l hg hl hc hgrant =>
    have htok : l.token = s.lm.tokenCounter := hgrant.token.trans (LeaseManager.nextToken_eq hpast)
    have hlen : t.lm.leases.length = s.lm.leases.length + 1 := by rw [hl, List.length_append]; rfl
    have hfull := hd.length_le
    rw [if_pos hg] at hb ⊢
    have hadv : t.lm.tokenCounter.toNat = s.lm.tokenCounter.toNat + 1 := by
      rw [hc, htok]
      exact advanceToken_succ (by omega)
    refine ⟨by omega, by omega, fun k hk => ?_⟩
    rcases List.mem_append.1 (hl ▸ hk) with hk | hk
    · have := hpast k hk
      omega
    · rw [List.mem_singleton.1 hk, htok]
      omega

/-- What a live lease permitted to a queued access it still does after a part, unless the access has just joined. -/
theorem Part.permitted (h : Part p s q t) (hi : AccessPhase p s) : ∀ e ∈ s.bp.queue, ∀ l ∈ t.lm.leases,
    l.handle = e.handle → l.token = e.token → l.holder = e.session → Permits t l e.slot e.channel e.op := by
  intro e he l hl hh ht hs
  have hold (k : Lease) (hk : k ∈ s.lm.leases) (hsame : l.Same k) : Permits t l e.slot e.channel e.op := by
    have hperm := hi.access.permitted e he k hk (hsame.handle ▸ hh) (hsame.token ▸ ht) (hsame.holder ▸ hs)
    have hready : ∀ i, k.resource.slot = i → (s.slots[i]).state.isReady = true := fun i hi' => by
      subst hi'
      exact Resource.ready_of_valid (hi.valid.leases k hk)
    rcases h.ready_kept e.slot (hready _ hperm.slot_eq) with hslot | ⟨hnone, -⟩
    · exact hperm.of_same hsame hslot
    · exact absurd hperm.slot_eq (hnone k hk)
  cases h.tableStep with
  | rewrite f hf hl' =>
    obtain ⟨k, hk, rfl⟩ := List.mem_map.1 (hl' ▸ hl)
    exact hold k hk (hf k)
  | fewer _ hl' => exact hold l (hl'.subset hl) ⟨rfl, rfl, rfl, rfl, rfl⟩
  | grant k _ hl' _ hgrant =>
    rcases List.mem_append.1 (hl' ▸ hl) with hl | hl
    · exact hold l hl ⟨rfl, rfl, rfl, rfl, rfl⟩
    · obtain rfl := List.mem_singleton.1 hl
      have hpast := hi.access.queue e he
      rw [← ht, hgrant.token, LeaseManager.nextToken_eq hi.access.leases] at hpast
      exact absurd hpast (lt_irrefl _)

theorem Part.accessPhase (h : Part p s q t) (hi : AccessPhase p s) : AccessPhase q t := by
  have hhandles := h.handlesDistinct hi.handles
  obtain ⟨hb, hmono, hpast⟩ := h.tableStep.budget hhandles hi.budget hi.access.leases
  refine ⟨hhandles, h.resourcesValid hi.valid, ⟨hpast, fun e he => ?_, fun e he l hl hh ht hs => ?_⟩, ?_⟩
  · rcases h.queue_cases with hq | ⟨e', a, rfl, hok⟩
    · exact (hi.access.queue e (hq.subset he)).trans_le hmono
    · rcases List.mem_append.1 he with he | he
      · exact hi.access.queue e he
      · obtain rfl := List.mem_singleton.1 he
        obtain ⟨l, hl, -, -, ht, -⟩ := State.accessChecks_ok hok
        rw [← ht]
        exact hi.access.leases l hl
  · rcases h.queue_cases with hq | ⟨e', a, rfl, hok⟩
    · exact h.permitted hi e (hq.subset he) l hl hh ht hs
    · rcases List.mem_append.1 he with he | he
      · exact h.permitted hi e he l hl hh ht hs
      · obtain rfl := List.mem_singleton.1 he
        obtain ⟨k, hk, -, hkh, -, hperm⟩ := State.accessChecks_ok hok
        obtain rfl : l = k := eq_of_nodup_map hi.handles hl hk (hh.trans hkh.symm)
        exact ⟨hperm.slot_eq, hperm.contains, hperm.writes⟩
  · rcases h.granted_cases with hg | ⟨hg, rfl⟩
    · rw [hg]
      exact hb
    · have := hi.budget
      rw [hg] at this
      exact this.trans_le (by simp)

/-- The law rests on the leases, the counter, the queue and the slots. -/
theorem AccessLaw.of_queue (hi : AccessLaw s) (hl : t.lm = s.lm) (hq : t.bp.queue.Sublist s.bp.queue)
    (hs : t.slots = s.slots) : AccessLaw t := by
  refine ⟨hl ▸ hi.leases, fun e he => hl ▸ hi.queue e (hq.subset he), fun e he l hl' hh ht hs' => ?_⟩
  exact (hi.permitted e (hq.subset he) l (hl ▸ hl') hh ht hs').of_same ⟨rfl, rfl, rfl, rfl, rfl⟩ (by rw [hs])

theorem Ending.accessLaw (h : Ending p s t) (hi : AccessPhase p s) : AccessLaw t := by
  cases h with
  | access _ _ _ hq => exact hi.access.of_queue rfl (hq ▸ List.sublist_cons_self _ _) rfl
  | linkClear | lineLow | powerOn =>
    exact ⟨fun _ h => absurd h List.not_mem_nil, fun _ h => absurd h List.not_mem_nil, fun _ h => absurd h List.not_mem_nil⟩
  | _ => exact hi.access.of_queue rfl (List.Sublist.refl _) rfl

/-- Settles O58: an access joins under a lease that permits it, and while the counter rises no later lease has its
token. -/
theorem stepKeepsAccessLaw : Obligations.StepKeepsAccessLaw := fun _ _ hb hd hv ha h =>
  step_keeps (I := AccessPhase) Part.accessPhase Ending.accessLaw h ⟨hd, hv, ha, hb⟩

/-! ### The fence (R131, R132) -/

/-- An ACCESS cycle is the one of the start of the event, with a discard mark set at most. -/
def CycleFrom (s t : State) : Prop :=
  ∀ h slot ch op reg discard d, t.bp.cycle = some { kind := .access h slot ch op reg discard, silence := d } →
    ∃ before, s.bp.cycle = some { kind := .access h slot ch op reg before, silence := d } ∧ (before = true → discard = true)

theorem CycleFrom.refl (s : State) : CycleFrom s s := fun _ _ _ _ _ discard _ hc => ⟨discard, hc, id⟩

theorem CycleFrom.of_eq {u : State} (h : CycleFrom s t) (hc : u.bp.cycle = t.bp.cycle) : CycleFrom s u :=
  fun k slot ch op reg discard d hu => h k slot ch op reg discard d (hc ▸ hu)

theorem CycleFrom.of_none {u : State} (hc : u.bp.cycle = none) : CycleFrom s u := by
  intro k slot ch op reg discard d hu
  rw [hc] at hu
  cases hu

theorem CycleFrom.of_discardIf {u : State} (h : CycleFrom s t) {f : Addr → Bool}
    (hc : u.bp.cycle = t.bp.cycle.map (fun c => { c with kind := c.kind.discardIf f })) : CycleFrom s u := by
  intro k slot ch op reg discard d hu
  rw [hc] at hu
  obtain ⟨⟨kind, d'⟩, hcycle, he⟩ := Option.map_eq_some_iff.1 hu
  cases kind with
  | identify => cases he
  | access k' slot' ch' op' reg' discard' =>
    cases he
    obtain ⟨before, hb, himp⟩ := h k slot ch op reg discard' _ hcycle
    exact ⟨before, hb, fun hbt => by simp [himp hbt]⟩

theorem Part.cycleFrom {u : State} (h : Part p t q u) (hi : CycleFrom s t) : CycleFrom s u := by
  cases h with
  | answer | tackExpiry | presenceRise | completeWaits | defer | refuseHead => exact hi.of_eq (by simp [State.setQueue])
  | entryLost => exact hi.of_eq (by simp)
  | purge => rw [State.purge_eq]; exact hi.of_discardIf rfl
  | abandon | identified | unidentified | endAccess => exact .of_none rfl
  | _ => exact hi.of_eq rfl

/-- What is said of an ACCESS cycle after an event: it was there before, or has just started under a live lease. -/
def Fenced (s t : State) : Prop :=
  ∀ h slot ch op reg discard d, t.bp.cycle = some { kind := .access h slot ch op reg discard, silence := d } →
    (∃ before, s.bp.cycle = some { kind := .access h slot ch op reg before, silence := d } ∧
      (before = true → discard = true)) ∨
    (discard = false ∧ t.panel.service = .online ∧ (t.slots[slot]).state.isReady = true ∧
      ∃ l ∈ t.lm.leases, l.holder = h ∧ t.bp.guardHold = some l.hold ∧ Permits t l slot ch op)

theorem CycleFrom.fenced (h : CycleFrom s t) : Fenced s t := fun k slot ch op reg discard d hc =>
  Or.inl (h k slot ch op reg discard d hc)

theorem Ending.fenced {u : State} (h : Ending p t u) (hi : AccessPhase p t) (hc : CycleFrom s t) : Fenced s u := by
  cases h with
  | @access e rest l _ _ _ hq hl =>
    intro k slot ch op reg discard d hcycle
    obtain ⟨hon, hready, hmem, hh, ht, hs⟩ := State.startCheck_ok hl
    cases hcycle
    have hperm := hi.access.permitted e (by simp [hq]) l hmem hh ht hs
    exact .inr ⟨rfl, hon, hready, l, hmem, hs, rfl, hperm.slot_eq, hperm.contains, hperm.writes⟩
  | identify =>
    intro k slot ch op reg discard d hcycle
    cases hcycle
  | linkClear | lineLow => exact (hc.of_discardIf rfl).fenced
  | powerOn => exact (CycleFrom.of_none rfl).fenced
  | _ => exact (hc.of_eq rfl).fenced

/-- Settles O59: a cycle starts at the end of an event, for a queue entry whose lease the start check has found. -/
theorem cyclesStartUnderLiveLeases : Obligations.CyclesStartUnderLiveLeases := by
  intro c s t h slot ch op reg discard d hexec hb hd hv ha
  exact (exec_event hexec).keeps (I := fun p u => AccessPhase p u ∧ CycleFrom s u) (J := Fenced s)
    (fun hp ⟨hi, hc⟩ => ⟨hp.accessPhase hi, hp.cycleFrom hc⟩) (fun he ⟨hi, hc⟩ => he.fenced hi hc)
    ⟨⟨hd, hv, ha, hb⟩, CycleFrom.refl s⟩ h slot ch op reg discard d

end Sys2Proof.Machine
end

section
/-! PROOFS. New requests (R95, R107, R110): what carrying one out leaves behind, said once for every kind. -/

namespace Sys2Proof.Machine

variable {s u : State} {kind : Byte} {f : Frame} {x : Session}

/-- An answer looks at the sessions and the link alone. -/
theorem State.answerWith_blocks {v : State} (hs : u.sessions = v.sessions) (hl : u.link = v.link) (h : Addr) (st : Status)
    (p : List Byte) (c : Bool) :
    u.answerWith h st p c =
      { u with link := (v.answerWith h st p c).link, sessions := (v.answerWith h st p c).sessions } := by
  have hfind : u.session? h = v.session? h := by simp only [State.session?, hs]
  simp only [State.answerWith, hfind]
  cases v.session? h with
  | none => simp only [← hs, ← hl]
  | some x => simp only [State.pushResponse, State.mapSession, hs, hl]

/-- A change of a session's record that an answer passes over. -/
structure Session.Aside (g : Session → Session) : Prop where
  host : ∀ x, (g x).host = x.host
  lastSeq : ∀ x, (g x).lastSeq = x.lastSeq
  answered : ∀ x st p, (g x).answered st p = g (x.answered st p)

theorem Session.aside_id : Session.Aside id := ⟨fun _ => rfl, fun _ => rfl, fun _ _ _ => rfl⟩

theorem Session.aside_fault (g : Option FaultRecord → Option FaultRecord) :
    Session.Aside (fun x => { x with fault := g x.fault }) := ⟨fun _ => rfl, fun _ => rfl, fun _ _ _ => rfl⟩

theorem Session.aside_tags (g : List Tag → List Tag) : Session.Aside (fun x => { x with tags := g x.tags }) :=
  ⟨fun _ => rfl, fun _ => rfl, fun _ _ _ => rfl⟩

theorem Session.aside_out (g : OutboundQueue → OutboundQueue) : Session.Aside (fun x => { x with out := g x.out }) :=
  ⟨fun _ => rfl, fun _ => rfl, fun _ _ _ => rfl⟩

/-- The record of a session whose new request is answered. -/
theorem Session.accept_answered (x : Session) (seq kind : Byte) (st : Status) (p : List Byte) :
    (x.resume.accept seq kind).answered st p = x.answeredNew kind seq st p := by
  simp [Session.answered, Session.accept, Session.answeredNew]

/-- A new request is answered in a state that differs from the one in which it was taken by a change of the session's
record and by the blocks other than the link. -/
theorem State.answerWith_new (hn : NewRequest s kind f x) {g : Session → Session} (hg : Session.Aside g)
    (hs : u.sessions = ((s.taking kind f).mapSession (frameHost f) g).sessions) (hl : u.link = (s.taking kind f).link)
    (st : Status) (p : List Byte) (c : Bool) :
    u.answerWith (frameHost f) st p c =
      { u with link := s.link.answeredNew { takenResponse (frameHost f) f.seq st p with clears := c },
               sessions := (s.answeredRequestWith g kind f st p).sessions } := by
  have hx : ((s.taking kind f).mapSession (frameHost f) g).session? (frameHost f) = some (g (x.resume.accept f.seq kind)) := by
    rw [State.mapSession_session? _ _ g hg.host, s.taking_session hn, Option.map_some, if_pos]
    exact (s.taking kind f).session?_host (s.taking_session hn)
  have hsessions : (((s.taking kind f).mapSession (frameHost f) g).mapSession (frameHost f)
      (fun x => x.answered st p)).sessions = (s.answeredRequestWith g kind f st p).sessions := by
    rw [State.taking_eq, State.mapSession_mapSession _ _ (fun x => x.resume.accept f.seq kind) g
      (fun x => (Session.resume_fields x).1),
      State.mapSession_mapSession _ _ (fun x => g (x.resume.accept f.seq kind)) _
      (fun x => (hg.host _).trans (Session.resume_fields x).1)]
    refine List.map_congr_left fun y _ => ?_
    split
    · exact (hg.answered _ _ _).trans (congrArg g (Session.accept_answered y _ _ _ _))
    · rfl
  have hseq : (g (x.resume.accept f.seq kind)).lastSeq = f.seq := hg.lastSeq _
  rw [State.answerWith_blocks hs (v := (s.taking kind f).mapSession (frameHost f) g) hl]
  simp only [State.answerWith, hx]
  rw [hseq]
  congr 1

/-- With no change of the session's record besides. -/
theorem State.answerWith_new_same (hn : NewRequest s kind f x) (hs : u.sessions = (s.taking kind f).sessions)
    (hl : u.link = (s.taking kind f).link) (st : Status) (p : List Byte) (c : Bool) :
    u.answerWith (frameHost f) st p c =
      { u with link := s.link.answeredNew { takenResponse (frameHost f) f.seq st p with clears := c },
               sessions := (s.answeredRequest kind f st p).sessions } := by
  refine State.answerWith_new hn Session.aside_id (hs.trans ?_) hl st p c
  simp [State.mapSession]

theorem State.taking_mapSession_answer (hn : NewRequest s kind f x) {g : Session → Session} (hg : Session.Aside g)
    (st : Status) (p : List Byte) :
    ((s.taking kind f).mapSession (frameHost f) g).answer (frameHost f) st p = s.answeredRequestWith g kind f st p :=
  State.answerWith_new hn hg rfl rfl st p false

/-! ### The requests, as they are carried out -/

theorem exec_closeSession_new (hn : NewRequest s Kind.closeSession f x) : exec (.closeSession f) s =
    .next (State.takeClose f.seq f.payload (frameHost f) (s.taking Kind.closeSession f)) :=
  congrArg Host.Outcome.next (s.takeRequest_new hn _ _)

theorem exec_fetchFault_new (hn : NewRequest s Kind.fetchFault f x) : exec (.fetchFault f) s =
    .next (State.takeFetchFault f.payload (frameHost f) (s.taking Kind.fetchFault f)) :=
  congrArg Host.Outcome.next (s.takeRequest_new hn _ _)

theorem exec_acquire_new (hn : NewRequest s Kind.acquire f x) : exec (.acquire f) s =
    .next (State.takeAcquire f.payload (frameHost f) (s.taking Kind.acquire f)) :=
  congrArg Host.Outcome.next (s.takeRequest_new hn _ _)

theorem exec_renew_new (hn : NewRequest s Kind.renew f x) : exec (.renew f) s =
    .next (State.takeRenew f.payload (frameHost f) (s.taking Kind.renew f)) :=
  congrArg Host.Outcome.next (s.takeRequest_new hn _ _)

theorem exec_release_new (hn : NewRequest s Kind.release f x) : exec (.release f) s =
    .next (State.takeRelease f.payload (frameHost f) (s.taking Kind.release f)) :=
  congrArg Host.Outcome.next (s.takeRequest_new hn _ _)

theorem exec_cancel_new (hn : NewRequest s Kind.cancel f x) : exec (.cancel f) s =
    .next (State.takeCancel f.payload (frameHost f) (s.taking Kind.cancel f)) :=
  congrArg Host.Outcome.next (s.takeRequest_new hn _ _)

theorem exec_query_new (hn : NewRequest s Kind.query f x) : exec (.query f) s =
    .next (State.takeQuery f.payload (frameHost f) (s.taking Kind.query f)) :=
  congrArg Host.Outcome.next (s.takeRequest_new hn _ _)

theorem exec_access_new (hn : NewRequest s Kind.access f x) : exec (.access f) s =
    .next (State.takeAccess f.payload (frameHost f) (s.taking Kind.access f)) :=
  congrArg Host.Outcome.next (s.takeRequest_new hn _ _)

theorem exec_book_new (hn : NewRequest s Kind.book f x) : exec (.book f) s =
    .next (State.takeBook f.payload (frameHost f) (s.taking Kind.book f)) :=
  congrArg Host.Outcome.next (s.takeRequest_new hn _ _)

theorem exec_unbook_new (hn : NewRequest s Kind.unbook f x) : exec (.unbook f) s =
    .next (State.takeUnbook f.payload (frameHost f) (s.taking Kind.unbook f)) :=
  congrArg Host.Outcome.next (s.takeRequest_new hn _ _)

theorem exec_rearm_new (hn : NewRequest s Kind.rearm f x) : exec (.rearm f) s =
    .next (State.takeRearm f.payload (frameHost f) (s.taking Kind.rearm f)) :=
  congrArg Host.Outcome.next (s.takeRequest_new hn _ _)

theorem exec_probe_new (hn : NewRequest s Kind.probe f x) : exec (.probe f) s =
    .next (State.takeProbe (frameHost f) (s.taking Kind.probe f)) :=
  congrArg Host.Outcome.next (s.takeRequest_new hn _ _)

theorem exec_configure_new (hn : NewRequest s Kind.configure f x) : exec (.configure f) s =
    .next (State.takeConfigure f.payload (frameHost f) (s.taking Kind.configure f)) :=
  congrArg Host.Outcome.next (s.takeRequest_new hn _ _)

theorem exec_resetController_new (hn : NewRequest s Kind.resetController f x) : exec (.resetController f) s =
    .next (State.takeResetController f.payload (frameHost f) (s.taking Kind.resetController f)) :=
  congrArg Host.Outcome.next (s.takeRequest_new hn _ _)

/-! ### FETCH FAULT, PROBE, CONFIGURE and RESET CONTROLLER -/

/-- The index byte of a fault record. -/
theorem indexByte_eq (i : Option FieldIndex) :
    indexByte i = (match i with | some i => i.setWidth 8 | none => 0xFF) := by
  cases i <;> rfl

/-- Settles O28: the fault record is the payload of the DONE, and goes. -/
theorem fetchFaultAnswered : Obligations.FetchFaultAnswered := by
  intro s f x hn hp
  have hfault : ((s.taking Kind.fetchFault f).session? (frameHost f)).bind Session.fault = x.fault := by
    rw [s.taking_session hn]
    exact (Session.resume_fields x).2.2.2.2.2.2.2
  have hexec := exec_fetchFault_new hn
  rw [hp] at hexec
  refine ⟨fun r hr => ?_, fun hr => ?_⟩ <;> rw [hexec]
  · have htake : State.takeFetchFault [] (frameHost f) (s.taking Kind.fetchFault f) =
        ((s.taking Kind.fetchFault f).mapSession (frameHost f) (fun x => { x with fault := none })).answer (frameHost f)
          .done r.payload := by
      simp only [State.takeFetchFault, State.parsed, parseEmpty, hfault, hr]
    rw [htake, State.taking_mapSession_answer hn (Session.aside_fault fun _ => none), FaultRecord.payload, indexByte_eq]
    rfl
  · have htake : State.takeFetchFault [] (frameHost f) (s.taking Kind.fetchFault f) =
        (s.taking Kind.fetchFault f).answer (frameHost f) .done [] := by
      simp only [State.takeFetchFault, State.parsed, parseEmpty, hfault, hr]
    rw [htake, s.taking_answer hn]

/-- The status byte of a slot in PROBE: state code and channel count. -/
theorem probeByte_eq (st : SlotState) : st.probeByte =
    (match st with
      | .empty => 0x00
      | .settling _ => 0x10
      | .identifying => 0x20
      | .ready n _ => BitVec.ofNat 8 (48 + n.toNat)
      | .faulted => 0x40) := by
  cases st with
  | ready n cls =>
    have hall : ∀ n : BitVec 4, (3 : BitVec 4) ++ n = BitVec.ofNat 8 (48 + n.toNat) := by decide
    exact hall n
  | _ => rfl

theorem State.probePayload_congr (hp : u.panel = s.panel) (hs : u.sessions.length = s.sessions.length) (hl : u.lm = s.lm)
    (hsl : u.slots = s.slots) : u.probePayload = s.probePayload := by
  simp only [State.probePayload, hp, hs, hl, hsl]

/-- Settles O41: taking the request leaves what the payload tells. -/
theorem probeAnswered : Obligations.ProbeAnswered := by
  intro s f x hn
  have hpayload : (s.taking Kind.probe f).probePayload = s.probePayload :=
    State.probePayload_congr rfl (by simp [State.taking, State.mapSession, State.endReception]) rfl rfl
  have hservice : serviceCode s.panel.service = if s.panel.service = .online then 0x00 else 0x01 := by
    cases s.panel.service <;> rfl
  rw [exec_probe_new hn, State.takeProbe, hpayload, s.taking_answer hn]
  refine congrArg (fun p => Host.Outcome.next (s.answeredRequest Kind.probe f .done p)) ?_
  rw [← hservice]
  exact congrArg (_ ++ ·) (List.map_congr_left fun r _ => probeByte_eq r.state)

theorem inRange_iff {v top : Nat} : inRange v top = false ↔ ¬ (1 ≤ v ∧ v ≤ top) := by
  simp [inRange]

/-- Settles O42: the checks of R104 and R117 in their order. -/
theorem configureAnswered : Obligations.ConfigureAnswered := by
  intro s f x c hn hp
  have hparse : parseConfigure f.payload = .ok c := by
    rw [hp]
    simp [parseConfigure, bytes16]
  have hexec := exec_configure_new hn
  have hmanager := s.taking_isManager hn
  have htake (u : State) (hu : u = State.takeConfigure f.payload (frameHost f) (s.taking Kind.configure f)) :
      exec (.configure f) s = .next u := hu ▸ hexec
  have hdeny (d : Denial) (h : State.takeConfigure f.payload (frameHost f) (s.taking Kind.configure f) =
      (s.taking Kind.configure f).deny (frameHost f) d) :
      exec (.configure f) s = .next (s.deniedRequest Kind.configure f d) :=
    htake _ ((h.trans (s.taking_deny hn d)).symm)
  have hchecked (hm : x.cls = .manager) (d : Denial) (hd : (s.taking Kind.configure f).configureDenial c = some d) :
      exec (.configure f) s = .next (s.deniedRequest Kind.configure f d) :=
    hdeny d (by simp only [State.takeConfigure, State.parsed, hparse, hmanager, hm, decide_true, if_true, hd])
  have hbad (hm : x.cls = .manager) (he : s.lm.leases = [] ∧ s.lm.waits = []) (i : FieldIndex) (hi : c.firstBad = some i) :
      exec (.configure f) s = .next (s.deniedRequest Kind.configure f (.fault .badConfig (some i))) :=
    hchecked hm _ (by simp [State.configureDenial, he, hi])
  refine ⟨fun hm => hdeny _ ?_, fun hm he => hchecked hm _ ?_, fun hm he h1 => hbad hm he 0 ?_, fun hm he h1 h2 => hbad hm he 1 ?_,
    fun hm he h1 h2 h3 => hbad hm he 2 ?_, fun hm he h1 h2 h3 h4 => hbad hm he 3 ?_, fun hm he h1 h2 h3 h4 => ?_⟩
  · simp only [State.takeConfigure, State.parsed, hparse, hmanager, hm]
    rfl
  · simp only [State.configureDenial]
    exact if_pos (by simpa [← not_and_or] using he)
  · simp [ConfigRecord.firstBad, inRange_iff, h1]
  · simp [ConfigRecord.firstBad, inRange_iff, h1, h2]
  · simp [ConfigRecord.firstBad, inRange_iff, h1, h2, h3]
  · simp [ConfigRecord.firstBad, inRange_iff, h1, h2, h3, h4]
  · have hd : (s.taking Kind.configure f).configureDenial c = none := by
      simp [State.configureDenial, he, ConfigRecord.firstBad, inRange_iff, h1, h2, h3, h4]
    refine htake _ (Eq.symm ?_)
    have hrun : State.takeConfigure f.payload (frameHost f) (s.taking Kind.configure f) =
        ((s.taking Kind.configure f).setConfig c).answer (frameHost f) .done c.payload := by
      simp only [State.takeConfigure, State.parsed, hparse, hmanager, hm, decide_true, if_true, hd]
    rw [hrun, hp]
    exact State.answerWith_new_same (u := (s.taking Kind.configure f).setConfig c) hn rfl rfl .done c.payload false

/-- Settles O43: the clear is committed before the answer is formed, on which it hangs. -/
theorem resetControllerCommits : Obligations.ResetControllerCommits := by
  intro s f x hn hp
  have hexec := exec_resetController_new hn
  have hmanager := s.taking_isManager hn
  rw [hp] at hexec
  refine ⟨fun hm => ?_, fun hm => ?_⟩ <;> rw [hexec]
  · have htake : State.takeResetController [] (frameHost f) (s.taking Kind.resetController f) =
        (s.taking Kind.resetController f).deny (frameHost f) (.fault .notPermitted none) := by
      simp only [State.takeResetController, State.parsed, parseEmpty, hmanager, hm]
      rfl
    rw [htake, s.taking_deny hn]
  · have htake : State.takeResetController [] (frameHost f) (s.taking Kind.resetController f) =
        (s.taking Kind.resetController f).commitClear.answerWith (frameHost f) .done [] true := by
      simp only [State.takeResetController, State.parsed, parseEmpty, hmanager, hm, decide_true, if_true]
    rw [htake, State.answerWith_new_same (u := (s.taking Kind.resetController f).commitClear) hn rfl rfl]
    rfl

end Sys2Proof.Machine
end

section
/-! PROOFS. Steps, the clock and power-on (R16, R42), the resource check (R2 to R4), and events of one block. -/

namespace Sys2Proof.Machine

variable {s t u : State}

/-! ### Steps -/

/-- Settles O1. -/
theorem stepTakesFront : Obligations.StepTakesFront := by
  intro s c rest h
  simp only [step, h]

theorem step_idle (h : s.pending = []) : step s = .next s.idle := by
  simp only [step, h]

/-- Settles O2: what is due is what `DueNow` says, and the choice is one of them. -/
theorem idleStep : Obligations.IdleStep := by
  intro s h
  rw [step_idle h]
  cases hdue : s.due with
  | nil =>
    have hnone (e : Instr) : ¬ DueNow s e := by
      rw [← s.mem_due e, hdue]
      exact List.not_mem_nil
    have hidle : s.idle = { s with now := s.now + 1 } := by simp only [State.idle, hdue]
    exact ⟨fun _ => congrArg _ hidle, fun ⟨e, he⟩ => absurd he (hnone e)⟩
  | cons e es =>
    have hidle : s.idle = { s with pending := pickDue s.now (e :: es) } := by simp only [State.idle, hdue]
    obtain ⟨e', he', hpick⟩ := pickDue_mem s.now e es
    have hdue' : DueNow s e' := by
      rw [← s.mem_due e', hdue]
      exact he'
    exact ⟨fun hno => absurd hdue' (hno e'), fun _ => ⟨e', hdue', by rw [hidle, hpick]⟩⟩

/-! ### The clock and the queue of commands -/

/-- The clock and the queue of commands stay. -/
structure Calm (s t : State) : Prop where
  pending : t.pending = s.pending
  now : t.now = s.now

theorem Calm.refl (s : State) : Calm s s := ⟨rfl, rfl⟩

theorem Calm.trans (h : Calm s t) (h' : Calm t u) : Calm s u := ⟨h'.pending.trans h.pending, h'.now.trans h.now⟩

section
variable (hu : Calm s u)
include hu

theorem Calm.answerWith (h : Addr) (st : Status) (p : List Byte) (c : Bool) : Calm s (u.answerWith h st p c) :=
  hu.trans ⟨by simp, by simp⟩

theorem Calm.answer (h : Addr) (st : Status) (p : List Byte) : Calm s (u.answer h st p) := hu.trans ⟨by simp, by simp⟩

theorem Calm.answerFault (h : Addr) (c : FaultCode) (i : Option FieldIndex) : Calm s (u.answerFault h c i) :=
  hu.trans ⟨by simp, by simp⟩

theorem Calm.deny (h : Addr) (d : Denial) : Calm s (u.deny h d) := hu.trans ⟨by simp, by simp⟩

theorem Calm.reply (h : Addr) (n : Byte) (st : Status) (p : List Byte) (o : Owner) : Calm s (u.reply h n st p o) :=
  hu.trans ⟨by simp, by simp⟩

theorem Calm.walk : Calm s u.walk := hu.trans ⟨by simp, by simp⟩

theorem Calm.arbitrate : Calm s u.arbitrate := hu.trans ⟨by simp, by simp⟩

theorem Calm.closeSession (h : Addr) : Calm s (u.closeSession h) := by
  have hclose : Calm u (u.closeLeases h) := ⟨by simp, by simp⟩
  exact ⟨hclose.pending.trans hu.pending, hclose.now.trans hu.now⟩

theorem Calm.fireIfRaised (h : Addr) (slot : SlotNo) : Calm s (u.fireIfRaised h slot) := by
  unfold State.fireIfRaised
  split
  · exact hu.trans ⟨by simp, by simp⟩
  · exact hu

theorem Calm.endCycle (o : CycleOutcome) : Calm s (u.endCycle o) := by
  unfold State.endCycle
  split
  · exact hu
  · exact hu.trans ⟨by simp, by simp⟩
  next h _ _ op _ discard _ _ =>
    have hanswer : Calm s (if discard then u else u.answer h .done (accessPayload op o)).freeBackplane := by
      split
      · exact ⟨hu.pending, hu.now⟩
      · exact ⟨(hu.answer ..).pending, (hu.answer ..).now⟩
    exact hanswer.walk.arbitrate

theorem Calm.silenceSlot (slot : SlotNo) : Calm s (u.silenceSlot slot) := by
  unfold State.silenceSlot
  split
  · exact hu.endCycle .silent
  · exact hu

theorem Calm.responseEnded (r : Response) : Calm s (u.responseEnded r) := by
  unfold State.responseEnded
  cases r.endsFlight <;> dsimp only <;> split_ifs <;> exact ⟨hu.pending, hu.now⟩

end

theorem Calm.parsed {α : Type} {h : Addr} {fields : Except Denial α} {run : α → State → State}
    (hrun : ∀ a, Calm s (run a s)) : Calm s (s.parsed h fields run) := by
  cases fields with
  | error d => exact (Calm.refl s).deny h d
  | ok a => exact hrun a

theorem Calm.takeFrame {k kind : Byte} {f : Frame} {take : Addr → State → State} (htake : ∀ h u, Calm u (take h u)) :
    Calm s (s.takeFrame k kind f take) := by
  have hend : Calm s s.endReception := ⟨rfl, rfl⟩
  unfold State.takeFrame
  split_ifs
  · exact ⟨(htake _ _).pending, (htake _ _).now⟩
  · exact hend
  · exact .refl s

theorem Calm.sequenced {x : Session} {kind seq : Byte} {run : State → State} (hrun : ∀ u, Calm u (run u)) :
    Calm s (s.sequenced x kind seq run) := by
  unfold State.sequenced
  split_ifs
  · exact (Calm.refl s).reply ..
  · exact ⟨(hrun _).pending, (hrun _).now⟩
  · exact .refl s
  · split
    · exact (Calm.refl s).reply ..
    · exact .refl s
  · exact ⟨rfl, rfl⟩

theorem Calm.takeRequest {kind : Byte} {f : Frame} {other run : Addr → State → State}
    (hother : ∀ h u, Calm u (other h u)) (hrun : ∀ h u, Calm u (run h u)) : Calm s (s.takeRequest kind f other run) := by
  refine .takeFrame fun h u => ?_
  split
  · exact hother h u
  · exact .sequenced (hrun h)

/-- A REQUEST other than OPEN and PROBE. -/
theorem Calm.request {kind : Byte} {f : Frame} {run : Addr → State → State} (hrun : ∀ h u, Calm u (run h u)) :
    Calm s (s.takeRequest kind f (State.noSession f.seq) run) :=
  .takeRequest (fun h u => (Calm.refl u).reply h f.seq .noSession [] .noSession) hrun

theorem Calm.takeOpen (seq : Byte) (h : Addr) (s : State) : Calm s (s.takeOpen seq h) := by
  have hclose := (Calm.refl s).closeSession h
  unfold State.takeOpen
  split
  · split_ifs
    · exact ⟨rfl, rfl⟩
    · exact (Calm.refl s).reply ..
  · split_ifs
    · exact .refl s
    · split
      · exact (Calm.refl s).reply ..
      · exact .refl s
    · unfold State.replaceSession
      split_ifs
      · exact ⟨hclose.pending, hclose.now⟩
      · exact ⟨hclose.pending, hclose.now⟩

theorem Calm.takeAcquire (p : List Byte) (h : Addr) (s : State) : Calm s (s.takeAcquire p h) := by
  have same := Calm.refl s
  refine .parsed fun a => ?_
  split
  · exact same.deny ..
  · unfold State.decideAcquire
    dsimp only
    split
    · refine Calm.answer ?_ ..
      exact ⟨rfl, rfl⟩
    · split_ifs
      · exact same.answer ..
      · exact same.answer ..
      · exact same.answerFault ..
      · exact same.answerFault ..
      · unfold State.deferAcquire
        dsimp only
        split_ifs
        · exact ⟨by simp, by simp⟩
        · exact ⟨by simp, by simp⟩

theorem Calm.takeRenew (p : List Byte) (h : Addr) (s : State) : Calm s (s.takeRenew p h) := by
  have same := Calm.refl s
  refine .parsed fun ⟨handle, token, term⟩ => ?_
  dsimp only
  split
  · exact same.answer ..
  · split
    · exact same.answer ..
    · split_ifs
      · refine Calm.answer ?_ ..
        exact ⟨rfl, rfl⟩
      · exact same.answerFault ..

theorem Calm.takeRelease (p : List Byte) (h : Addr) (s : State) : Calm s (s.takeRelease p h) := by
  refine .parsed fun ⟨handle, token⟩ => ?_
  dsimp only
  split
  · exact (Calm.refl s).answer ..
  · exact ⟨by simp, by simp⟩

theorem Calm.takeCancel (p : List Byte) (h : Addr) (s : State) : Calm s (s.takeCancel p h) := by
  refine .parsed fun tag => ?_
  split
  · exact ⟨by simp, by simp⟩
  · exact (Calm.refl s).answer ..

theorem Calm.takeQuery (p : List Byte) (h : Addr) (s : State) : Calm s (s.takeQuery p h) := by
  refine .parsed fun ⟨slot, channel⟩ => ?_
  dsimp only
  split
  · exact (Calm.refl s).deny ..
  · exact (Calm.refl s).answer ..

theorem Calm.takeAccess (p : List Byte) (h : Addr) (s : State) : Calm s (s.takeAccess p h) := by
  refine .parsed fun a => ?_
  split
  · exact (Calm.refl s).deny ..
  · exact Calm.arbitrate ⟨rfl, rfl⟩

theorem Calm.takeBook (p : List Byte) (h : Addr) (s : State) : Calm s (s.takeBook p h) := by
  refine .parsed fun _ => .parsed fun _ => Calm.answer (Calm.fireIfRaised ?_ _ _) ..
  exact ⟨rfl, rfl⟩

theorem Calm.takeUnbook (p : List Byte) (h : Addr) (s : State) : Calm s (s.takeUnbook p h) := by
  refine .parsed fun _ => .parsed fun _ => Calm.answer ?_ ..
  exact ⟨rfl, rfl⟩

theorem Calm.takeRearm (p : List Byte) (h : Addr) (s : State) : Calm s (s.takeRearm p h) := by
  refine .parsed fun _ => .parsed fun slot => ?_
  split
  · exact (Calm.refl s).answer ..
  · split
    · exact (Calm.refl s).answer ..
    · refine Calm.answer (Calm.fireIfRaised ?_ _ _) ..
      exact ⟨rfl, rfl⟩

theorem Calm.takeConfigure (p : List Byte) (h : Addr) (s : State) : Calm s (s.takeConfigure p h) := by
  refine .parsed fun c => ?_
  split
  · split
    · exact (Calm.refl s).deny ..
    · refine Calm.answer ?_ ..
      exact ⟨rfl, rfl⟩
  · exact (Calm.refl s).answerFault ..

theorem Calm.takeResetController (p : List Byte) (h : Addr) (s : State) : Calm s (s.takeResetController p h) := by
  refine .parsed fun _ => ?_
  split
  · refine Calm.answerWith ?_ ..
    exact ⟨rfl, rfl⟩
  · exact (Calm.refl s).answerFault ..

theorem Calm.takeFetchFault (p : List Byte) (h : Addr) (s : State) : Calm s (s.takeFetchFault p h) := by
  refine .parsed fun _ => ?_
  split
  · refine Calm.answer ?_ ..
    exact ⟨rfl, rfl⟩
  · exact (Calm.refl s).answer ..

theorem Calm.chooseFrame (s : State) : Calm s s.chooseFrame := by
  unfold State.chooseFrame
  split
  · exact ⟨rfl, rfl⟩
  · split
    · split
      · exact ⟨rfl, rfl⟩
      · exact .refl s
    · exact .refl s

theorem Calm.responseLost (r : Response) (s : State) : Calm s (s.responseLost r) := by
  unfold State.responseLost
  split
  · split
    · exact ⟨rfl, rfl⟩
    · exact .refl s
  all_goals
    split
    · exact .refl s
    · exact ⟨rfl, rfl⟩

theorem Calm.presenceDrop (slot : SlotNo) (s : State) : Calm s (s.presenceDrop slot) := by
  unfold State.presenceDrop
  split_ifs
  · exact .refl s
  · split
    · have hvacate : Calm s ((s.emptySlot slot).vacateLeases slot) := ⟨by simp [State.emptySlot], by simp [State.emptySlot]⟩
      exact hvacate.silenceSlot slot
    · refine Calm.silenceSlot ?_ slot
      exact ⟨rfl, rfl⟩
    all_goals exact ⟨rfl, rfl⟩

/-- Every command but a deadline leaves the clock and the queue of commands. -/
theorem exec_calm (c : Instr) (s : State) (hc : isDeadline c = false) : ∃ t, exec c s = .next t ∧ Calm s t := by
  cases c with
  | settlingDeadline | leaseExpiry | graceDeadline | waitDeadline | tackExpiry | silenceExpiry => cases hc
  | powerOn | linkResetRelease | switchToService | attentionFall | frameTruncated => exact ⟨_, rfl, rfl, rfl⟩
  | openSession sw f =>
    have htake : Calm (s.readSwitches sw) ((s.readSwitches sw).takeFrame FrameKind.request Kind.openSession f
        (State.takeOpen f.seq)) := .takeFrame (Calm.takeOpen f.seq)
    exact ⟨_, rfl, htake.pending, htake.now⟩
  | closeSession f =>
    refine ⟨_, rfl, .request fun h u => .parsed fun _ => ?_⟩
    have hclose := (Calm.refl u).closeSession h
    exact ⟨hclose.pending, hclose.now⟩
  | fetchFault f => exact ⟨_, rfl, .request (Calm.takeFetchFault f.payload)⟩
  | acquire f => exact ⟨_, rfl, .request (Calm.takeAcquire f.payload)⟩
  | renew f => exact ⟨_, rfl, .request (Calm.takeRenew f.payload)⟩
  | release f => exact ⟨_, rfl, .request (Calm.takeRelease f.payload)⟩
  | cancel f => exact ⟨_, rfl, .request (Calm.takeCancel f.payload)⟩
  | query f => exact ⟨_, rfl, .request (Calm.takeQuery f.payload)⟩
  | access f => exact ⟨_, rfl, .request (Calm.takeAccess f.payload)⟩
  | book f => exact ⟨_, rfl, .request (Calm.takeBook f.payload)⟩
  | unbook f => exact ⟨_, rfl, .request (Calm.takeUnbook f.payload)⟩
  | rearm f => exact ⟨_, rfl, .request (Calm.takeRearm f.payload)⟩
  | probe f =>
    exact ⟨_, rfl, .takeRequest (fun h u => (Calm.refl u).reply h f.seq .done u.probePayload .noSession)
      fun h u => (Calm.refl u).answer h .done u.probePayload⟩
  | configure f => exact ⟨_, rfl, .request (Calm.takeConfigure f.payload)⟩
  | resetController f => exact ⟨_, rfl, .request (Calm.takeResetController f.payload)⟩
  | unknownRequestKind kind f =>
    refine ⟨_, rfl, ?_⟩
    split
    · exact .refl s
    · exact .request fun h u => (Calm.refl u).answerFault h .badKind none
  | ack kind f =>
    refine ⟨_, rfl, .takeFrame fun h u => ?_⟩
    rcases u.takeAck_cases f.seq h with ⟨-, e⟩ | ⟨-, e⟩ <;> rw [e]
    · exact ⟨rfl, rfl⟩
    · exact .refl u
  | frameDiscard => exact ⟨_, rfl, by split; exacts [.refl s, ⟨rfl, rfl⟩]⟩
  | transmitStart => exact ⟨_, rfl, by split; exacts [.chooseFrame s, .refl s]⟩
  | transmissionEnd sw =>
    refine ⟨_, rfl, ?_⟩
    unfold State.transmissionEnd
    split
    · refine Calm.responseEnded ?_ _
      exact ⟨rfl, rfl⟩
    · exact ⟨rfl, rfl⟩
    · exact ⟨rfl, rfl⟩
  | contentionLoss =>
    refine ⟨_, rfl, ?_⟩
    unfold State.contentionLoss
    split
    · exact ⟨(Calm.responseLost _ _).pending, (Calm.responseLost _ _).now⟩
    · exact ⟨by simp, by simp⟩
    · exact .refl s
  | linkResetAssert sw =>
    refine ⟨_, rfl, ?_⟩
    unfold State.assertReset
    split
    · exact .refl s
    · exact ⟨rfl, rfl⟩
  | switchToOnline => exact ⟨_, rfl, by split; exacts [.refl s, Calm.walk ⟨rfl, rfl⟩]⟩
  | presenceRise slot =>
    refine ⟨_, rfl, ?_⟩
    unfold State.presenceRise
    split
    · exact .refl s
    · exact ⟨rfl, rfl⟩
  | presenceDrop slot => exact ⟨_, rfl, .presenceDrop slot s⟩
  | attentionRise slot =>
    refine ⟨_, rfl, ?_⟩
    unfold State.attentionRise
    split
    · exact .refl s
    · exact ⟨by simp, by simp⟩
  | identificationStart => exact ⟨_, rfl, by simp, by simp⟩
  | accessStartCheck => exact ⟨_, rfl, by simp, by simp⟩
  | moduleAnswer slot a => exact ⟨_, rfl, by split; exacts [(Calm.refl s).endCycle _, .refl s]⟩
  | startDelimiter => exact ⟨_, rfl, by split; exacts [⟨rfl, rfl⟩, .refl s]⟩

/-- The clock runs on to an instant, and what follows leaves it there. -/
theorem Calm.of_reach {d : Instant} (h : Calm (s.reach d) t) : t.pending = s.pending ∧ s.now ≤ t.now :=
  ⟨h.pending, h.now ▸ Nat.le_max_left s.now d⟩

theorem Calm.le (h : Calm s t) : t.pending = s.pending ∧ s.now ≤ t.now := ⟨h.pending, h.now ▸ le_rfl⟩

/-- A deadline event leaves the queue of commands, and runs the clock on at most. -/
theorem exec_deadline (c : Instr) (s : State) (hc : isDeadline c = true) :
    ∃ t, exec c s = .next t ∧ t.pending = s.pending ∧ s.now ≤ t.now := by
  cases c with
  | settlingDeadline slot =>
    refine ⟨_, rfl, ?_⟩
    unfold State.settled
    split
    next d _ => exact Calm.of_reach (d := d) (Calm.arbitrate ⟨rfl, rfl⟩)
    all_goals exact (Calm.refl s).le
  | leaseExpiry h =>
    refine ⟨_, rfl, ?_⟩
    unfold State.expireLease
    split
    next l _ => exact Calm.of_reach (d := l.expiry) ⟨by simp, by simp⟩
    next => exact (Calm.refl s).le
  | graceDeadline g =>
    refine ⟨_, rfl, ?_⟩
    unfold State.revokeGroup
    split
    next d _ => exact Calm.of_reach (d := d) ⟨by simp, by simp⟩
    next => exact (Calm.refl s).le
  | waitDeadline n =>
    refine ⟨_, rfl, ?_⟩
    unfold State.timeOutWait
    split
    next w _ => exact Calm.of_reach (d := w.deadline) ⟨by simp, by simp⟩
    next => exact (Calm.refl s).le
  | tackExpiry =>
    refine ⟨_, rfl, ?_⟩
    unfold State.tackExpiry
    split
    next d _ => exact Calm.of_reach (d := d) ⟨rfl, rfl⟩
    next => exact (Calm.refl s).le
  | silenceExpiry =>
    refine ⟨_, rfl, ?_⟩
    unfold State.fallSilent
    split
    next c _ => exact Calm.of_reach (d := c.silence) ((Calm.refl _).endCycle .silent)
    next => exact (Calm.refl s).le
  | _ => cases hc

/-- Settles O3. -/
theorem everyCommandCompletes : Obligations.EveryCommandCompletes := by
  intro c s
  cases hc : isDeadline c with
  | true =>
    obtain ⟨t, he, hp, hn⟩ := exec_deadline c s hc
    exact ⟨t, he, hp, hn, fun h => nomatch h⟩
  | false =>
    obtain ⟨t, he, hcalm⟩ := exec_calm c s hc
    exact ⟨t, he, hcalm.pending, hcalm.now ▸ le_rfl, fun _ => hcalm.now⟩

/-! ### Power-on and reset -/

/-- Settles O4. -/
theorem powerOnValues : Obligations.PowerOnValues := by
  refine ⟨fun p s => rfl, rfl, rfl, congrArg Host.Outcome.next ?_⟩
  decide

/-- Settles O5: after reset every table is empty and every slot EMPTY. -/
theorem lawsHoldAtReset : Obligations.LawsHoldAtReset := by
  have hnil {α : Type} {p : α → Prop} : ∀ a ∈ ([] : List α), p a := fun _ h => absurd h List.not_mem_nil
  have hslot (i : SlotNo) : State.reset.slots[i] = { state := .empty, presence := false, attention := false } :=
    Vector.getElem_replicate ..
  have hguard : GuardLaw State.reset := .of_no_guard rfl
  have htokens : TokensDistinct State.reset := ⟨List.nodup_nil, hnil, by decide⟩
  have hsessions : SessionsDistinct State.reset := ⟨List.nodup_nil, Nat.zero_le _, hnil⟩
  have hbackplane : BackplaneLaw State.reset := ⟨rfl, fun _ => ⟨rfl, rfl⟩⟩
  have hidentification : IdentificationLaw State.reset := by
    refine ⟨List.Pairwise.nil, fun _ _ _ => List.not_mem_nil, fun i => ?_⟩
    rw [hslot]
    exact ⟨nofun, fun h => by rcases h with h | ⟨_, h⟩ <;> cases h⟩
  have hslots : SlotLaw State.reset := by
    intro i
    rw [hslot]
    exact ⟨by simp, nofun⟩
  have hsilent : SilentLaw State.reset := ⟨fun _ => ⟨rfl, rfl, rfl⟩, fun _ => ⟨rfl, rfl, rfl, rfl⟩⟩
  have harrival : ArrivalLaw State.reset := ⟨hnil, List.Pairwise.nil, List.nodup_nil, hnil⟩
  have htransmission : TransmissionLaw State.reset :=
    ⟨fun h => absurd rfl h, fun _ h => (nomatch h), fun _ _ _ h => (nomatch h), List.Pairwise.nil⟩
  have hcontended : ContendedLaw State.reset := fun h x n hx => by
    rw [State.session?_of_nil rfl] at hx
    cases hx
  exact ⟨List.Pairwise.nil, hguard, List.nodup_nil, htokens, ⟨hnil, hnil⟩, List.Pairwise.nil, List.nodup_nil, rfl, hsessions,
    ⟨hnil, hnil, hnil, hnil⟩, hnil, ⟨hnil, hnil, hnil⟩, List.nodup_nil, .of_no_attempt rfl, hbackplane, hidentification,
    hslots, fun _ => rfl, hsilent, harrival, htransmission, hnil, ⟨hnil, hnil⟩, ⟨hnil, hnil, hnil⟩, hcontended⟩

/-! ### Resources -/

/-- Settles O21. -/
theorem resourceTablesAndCheck : Obligations.ResourceTablesAndCheck := by
  have hover (a b : Resource) : a.overlaps b = true ↔
      a.slot = b.slot ∧ (a.channel = b.channel ∨ a.channel = none ∨ b.channel = none) := by
    simp only [Resource.overlaps, Bool.and_eq_true, Bool.or_eq_true, decide_eq_true_eq]
    tauto
  refine ⟨hover, fun a b => ?_, fun r st c => Resource.contains_iff, fun slots i j b c => ⟨fun hb => ?_, fun slot hb => ?_⟩⟩
  · rw [← hover]
    simp [Hold.compatible]
  · have hslot : slotOf b = none := dif_neg (by omega)
    simp only [resourceCheck, hslot]
  · have hslot : slotOf b = some slot := by
      have hlt : b.toNat < 16 := by omega
      rw [slotOf, dif_pos hlt]
      exact congrArg some (Fin.ext hb)
    have hno (ch : ChannelNo) (hch : c.toNat = ch.val) : channelOf c = some (some ch) := by
      have hne : c ≠ 0xFF := by
        rintro rfl
        have : (0xFF : Byte).toNat = 255 := rfl
        omega
      have hlt : c.toNat < 4 := by omega
      rw [channelOf, if_neg hne, channelNoOf, dif_pos hlt]
      exact congrArg (some ∘ some) (Fin.ext hch)
    refine ⟨fun h4 hff => ?_, fun hc hready => ?_, fun n cls hst => ⟨fun hff => ?_, fun ch hch hn => ?_, fun ch hch hn => ?_⟩⟩
    · have hchan : channelOf c = none := by
        rw [channelOf, if_neg hff, channelNoOf, dif_neg (by omega)]
        rfl
      simp only [resourceCheck, hslot, hchan]
    · have hchan : ∃ ch, channelOf c = some ch := by
        rcases hc with hc | rfl
        · exact ⟨_, hno ⟨c.toNat, hc⟩ rfl⟩
        · exact ⟨none, rfl⟩
      have hcount : (slots[slot]).state.channels? = none := by
        cases hst : (slots[slot]).state <;> simp_all [SlotState.isReady, SlotState.channels?]
      obtain ⟨ch, hch⟩ := hchan
      simp only [resourceCheck, hslot, hch, hcount]
    · have hcount : (slots[slot]).state.channels? = some n := by rw [hst]; rfl
      subst hff
      have hall : channelOf 0xFF = some none := rfl
      simp only [resourceCheck, hslot, hall, hcount]
    · have hcount : (slots[slot]).state.channels? = some n := by rw [hst]; rfl
      simp only [resourceCheck, hslot, hno ch hch, hcount]
      exact if_neg (by omega)
    · have hcount : (slots[slot]).state.channels? = some n := by rw [hst]; rfl
      simp only [resourceCheck, hslot, hno ch hch, hcount]
      exact if_pos hn

/-! ### Settling, the service switch, and the link reset line -/

/-- Settles O9. -/
theorem settlingDeadlineIdentifies : Obligations.SettlingDeadlineIdentifies := by
  intro s slot
  refine ⟨fun d hd => congrArg Host.Outcome.next ?_, fun hno => congrArg Host.Outcome.next ?_⟩
  · have hsettled : s.settled slot =
        ((s.reach d).setSlot slot (fun r => { r with state := .identifying })).joinIdentification slot := by
      simp only [State.settled, hd]
    exact hsettled
  · unfold State.settled
    split
    next d hd => exact absurd hd (hno d)
    all_goals rfl

/-- Settles O44. -/
theorem serviceSwitchMoves : Obligations.ServiceSwitchMoves := by
  intro s
  refine ⟨rfl, fun h => congrArg Host.Outcome.next (if_neg ?_), fun h => congrArg Host.Outcome.next (if_pos h)⟩
  rw [h]
  nofun

/-- The cycle that a link clear leaves: an ACCESS is to be discarded (R172). -/
theorem cleared_cycle (c : Option Cycle) (p : Addr → Bool) :
    c.map (fun c => { c with kind := c.kind.discardIf p }) = c.map (fun c =>
      match c.kind with
      | .access k slot ch op reg d => { c with kind := .access k slot ch op reg (d || p k) }
      | .identify _ => c) := by
  rcases c with _ | ⟨_ | _, d⟩ <;> rfl

/-- A link clear with the switches read (R119, R121). -/
theorem State.linkClear_eq (sw : Switches) (s : State) : (s.readSwitches sw).linkClear = s.cleared sw := by
  have hcycle : s.bp.cycle.map (fun c => { c with kind := c.kind.discardIf (fun _ => true) }) = (s.cleared sw).bp.cycle := by
    refine (cleared_cycle _ _).trans ?_
    simp only [Bool.or_true]
    rfl
  simp only [State.linkClear, Backplane.clear, State.readSwitches, hcycle]
  rfl

/-- Settles O37. -/
theorem linkResetClears : Obligations.LinkResetClears := by
  intro s sw
  refine ⟨fun h => congrArg Host.Outcome.next ?_, fun h => congrArg Host.Outcome.next (if_pos h), rfl⟩
  have hline : ¬ s.link.resetLine = .asserted := by rw [h]; nofun
  rw [State.assertReset, if_neg hline, State.linkClear_eq]

end Sys2Proof.Machine
end

section
/-! PROOFS. The requests of the Lease Manager (R33, R34, R44 to R47, R58, R112) and the arrival of an ACCESS (R126), each
carried out in the state in which it has been taken. -/

namespace Sys2Proof.Machine

variable {s t u v : State} {f : Frame} {x : Session}

/-! ### Several notices -/

/-- A notice looks at the sessions and the attempt alone. -/
theorem State.handNotice_congr (hs : u.sessions = v.sessions) (hd : u.delivery = v.delivery) (h : Addr) (n : Notice) :
    (u.handNotice h n).sessions = (v.handNotice h n).sessions := by
  simp only [State.handNotice, State.mapQueue, State.mapSession, State.flying, hs, hd]

/-- Several notices change the session records alone, and those as from any state with the same records and attempt. -/
theorem State.foldl_handNotice_eq {α : Type} (g : α → Addr) (n : α → Notice) (as : List α) (hs : u.sessions = v.sessions)
    (hd : u.delivery = v.delivery) :
    as.foldl (fun s a => s.handNotice (g a) (n a)) u =
      { u with sessions := (as.foldl (fun s a => s.handNotice (g a) (n a)) v).sessions } := by
  induction as generalizing u v with
  | nil => exact congrArg (fun xs => { u with sessions := xs }) hs
  | cons a as ih =>
    have hnext := ih (State.handNotice_congr hs hd (g a) (n a)) (show (u.handNotice (g a) (n a)).delivery =
      (v.handNotice (g a) (n a)).delivery from hd)
    exact hnext

/-! ### ACQUIRE -/

theorem State.decideAcquire_granted {h : Addr} {a : AcquireFields} {r : Resource} {hd : Handle}
    (hg : s.grantable s.lm.waits (a.hold r) = true) (hf : freeHandle s.lm.leases = some hd) :
    s.decideAcquire h a r = (s.addLease (s.newLease hd h (a.hold r) a.term)).answer h .granted
      (grantedPayload (s.newLease hd h (a.hold r) a.term)) := by
  unfold AcquireFields.hold at hg
  simp only [State.decideAcquire, hg, hf]
  rfl

/-- What step 6 does when the request cannot be granted at once and may wait (R47). -/
theorem State.decideAcquire_waits {h : Addr} {a : AcquireFields} {r : Resource} (hlimit : a.waitLimit ≠ 0)
    (hg : s.grantable s.lm.waits (a.hold r) = false ∨ TableFull s.lm.leases) :
    s.decideAcquire h a r =
      if (s.tags h).contains a.tag then s.answerFault h .tagInUse (some 0)
      else if Config.maxTags ≤ (s.tags h).length then s.answerFault h .tooManyDeferred none
      else s.deferAcquire h a r := by
  unfold AcquireFields.hold at hg
  rcases hg with hg | hfull
  · simp only [State.decideAcquire, hg, hlimit, if_false]
  · have hf := hfull.freeHandle_eq_none
    cases hg : s.grantable s.lm.waits { resource := r, mode := a.mode } <;>
      simp only [State.decideAcquire, hg, hf, hlimit, if_false]

/-- Settles O14. -/
theorem acquireGranted : Obligations.AcquireGranted := by
  intro s f x a r hd hn hf hp hg hfree
  have hdecide : (s.taking Kind.acquire f).decideAcquire (frameHost f) a r = _ :=
    State.decideAcquire_granted (s := s.taking Kind.acquire f) hg (freeHandle_lowest.2 hfree)
  rw [execAcquire_of_passes hn hf hp, hdecide]
  exact congrArg Host.Outcome.next (State.answerWith_new_same hn (u := (s.taking Kind.acquire f).addLease
    ((s.taking Kind.acquire f).newLease hd (frameHost f) (a.hold r) a.term)) rfl rfl .granted _ false)

theorem exec_acquire_denied {a : AcquireFields} (hn : NewRequest s Kind.acquire f x) (hf : f.payload = acquirePayload a)
    {d : Denial} (hd : (s.taking Kind.acquire f).acquireChecks (frameHost f) a = .error d) :
    exec (.acquire f) s = .next (s.deniedRequest Kind.acquire f d) := by
  rw [exec_acquire_new hn, ← s.taking_deny hn]
  simp only [State.takeAcquire, hf, parseAcquire_payload, State.parsed, hd]

/-- Settles O16: the checks of R44 in their order, and of R47 for a request that would have to wait. -/
theorem acquireDenied : Obligations.AcquireDenied := by
  intro s f x a hn hf
  have hmanager := s.taking_isManager hn
  have hterm : (s.taking Kind.acquire f).termOk a.term = true ↔ TermOk s a.term := State.termOk_iff (s := s.taking _ f)
  refine ⟨fun hs => exec_acquire_denied hn hf ?_, fun d hs hr => exec_acquire_denied hn hf ?_, fun r hs hr =>
    ⟨fun ht => exec_acquire_denied hn hf ?_, fun ht hu hc => exec_acquire_denied hn hf ?_,
      fun ht hu hc hw => exec_acquire_denied hn hf ?_⟩, fun r hp hw hg => ?_⟩
  · simp only [State.acquireChecks, State.taking_frame, hs, if_true]
  · simp only [State.acquireChecks, State.taking_frame, hs, reduceCtorEq, if_false, hr]
  · have hbad : (s.taking Kind.acquire f).termOk a.term = false := by
      rw [← Bool.not_eq_true, hterm]
      exact ht
    simp only [State.acquireChecks, State.taking_frame, hs, reduceCtorEq, if_false, hr, hbad, if_true]
  · simp only [State.acquireChecks, State.taking_frame, hs, reduceCtorEq, if_false, hr, hterm.2 ht, hmanager, hu, hc,
      decide_false, and_self, if_true, Bool.true_eq_false]
  · simp only [State.acquireChecks, State.taking_frame, hs, reduceCtorEq, if_false, hr, hterm.2 ht, hmanager, hu, hc,
      decide_true, and_self, if_true, Bool.true_eq_false, and_false, hw]
  · have hdecide := State.decideAcquire_waits (s := s.taking Kind.acquire f) (h := frameHost f) hw hg
    rw [s.taking_tags hn] at hdecide
    refine ⟨fun ht => ?_, fun ht h4 => ?_⟩
    · have hin : x.tags.contains a.tag = true := List.contains_iff_mem.2 ht
      rw [execAcquire_of_passes hn hf hp, hdecide, if_pos hin, s.taking_answerFault hn]
    · have hin : ¬ x.tags.contains a.tag = true := fun h => ht (List.contains_iff_mem.1 h)
      rw [execAcquire_of_passes hn hf hp, hdecide, if_neg hin, if_pos (show Config.maxTags ≤ _ from h4), s.taking_answerFault hn]

/-- A recall changes the session records and the state fields of leases (R70). -/
theorem State.recall_eq (w : Wait) (hs : u.sessions = v.sessions) (hd : u.delivery = v.delivery) :
    u.recall w = { u with
      sessions := ((recallTargets u.lm.leases w.hold).foldl
        (fun s l => s.handNotice l.holder (.lease .recall l.resource l.handle l.token)) v).sessions,
      lm := { u.lm with leases := u.lm.leases.map (fun l =>
        if l.state = .held ∧ w.hold.compatible l.hold = false then
          l.recall (u.now + u.panel.config.tGrace.toNat * Config.second) w.arrival
        else l) } } := by
  unfold State.recall
  exact State.foldl_handNotice_eq _ _ _ (v := v) hs hd

/-- Settles O17: record, tag and answer, and for an urgent request the recall as the last part. -/
theorem acquireDeferred : Obligations.AcquireDeferred := by
  intro s f x a r hn hf hp hg hw ht hl w u hit
  have hin : ¬ x.tags.contains a.tag = true := fun h => ht (List.contains_iff_mem.1 h)
  have hdecide : (s.taking Kind.acquire f).decideAcquire (frameHost f) a r =
      (s.taking Kind.acquire f).deferAcquire (frameHost f) a r := by
    rw [State.decideAcquire_waits (s := s.taking Kind.acquire f) hw hg, s.taking_tags hn, if_neg hin]
    exact if_neg (Nat.not_le_of_lt (show x.tags.length < Config.maxTags from hl))
  have hanswer : (((s.taking Kind.acquire f).addWait w).mapSession (frameHost f)
      (fun x => { x with tags := x.tags ++ [a.tag] })).answer (frameHost f) .deferred [tagByte a.tag] = u :=
    State.answerWith_new hn (Session.aside_tags (· ++ [a.tag])) (u := ((s.taking Kind.acquire f).addWait w).mapSession
      (frameHost f) (fun x => { x with tags := x.tags ++ [a.tag] })) rfl rfl .deferred _ false
  have hdefer : (s.taking Kind.acquire f).deferAcquire (frameHost f) a r = if a.urgent then u.recall w else u :=
    congrArg (fun v : State => if a.urgent then v.recall w else v) hanswer
  rw [execAcquire_of_passes hn hf hp, hdecide, hdefer]
  refine ⟨fun hu => by rw [if_neg (by simp [hu])], fun hu => ?_⟩
  have hlease (l : Lease) : (l.state = .held ∧ w.hold.compatible l.hold = false) ↔ hit l = true := by
    simp only [hit, Bool.and_eq_true, decide_eq_true_eq, Bool.not_eq_true']
    exact Iff.rfl
  have hmap : u.lm.leases.map (fun l => if l.state = .held ∧ w.hold.compatible l.hold = false then
      l.recall (u.now + u.panel.config.tGrace.toNat * Config.second) w.arrival else l) =
      s.lm.leases.map (fun l => if hit l then
        { l with state := .recalled (s.now + s.panel.config.tGrace.toNat * 1000000) (s.lm.arrivalCounter + 1) }
        else l) :=
    List.map_congr_left fun l _ => if_congr (hlease l) rfl rfl
  rw [if_pos hu, State.recall_eq w (v := u) rfl rfl, hmap]
  rfl

/-! ### RENEW, RELEASE and CANCEL -/

theorem parseRenew_payload (handle : Byte) (token : Token) (term : Word16) :
    parseRenew (handle :: bytes32 token ++ bytes16 term) = .ok (handle, token, term) := by
  simp [parseRenew, bytes32, bytes16]

theorem parseRelease_payload (handle : Byte) (token : Token) : parseRelease (handle :: bytes32 token) = .ok (handle, token) := by
  simp [parseRelease, bytes32]

theorem parseCancel_payload (tag : Tag) : parseCancel [tagByte tag] = .ok tag := by
  simp only [parseCancel, tagOf_tagByte]

/-- Settles O18. -/
theorem renewAnswered : Obligations.RenewAnswered := by
  intro s f x handle token term hn hf hd
  have hexec := exec_renew_new hn
  rw [hf] at hexec
  have htake (u : State) (h : State.takeRenew (handle :: bytes32 token ++ bytes16 term) (frameHost f)
      (s.taking Kind.renew f) = u) : exec (.renew f) s = .next u := h ▸ hexec
  refine ⟨fun hm => htake _ ?_, fun l hm => ⟨fun d g hl => htake _ ?_, fun hl ht => htake _ ?_, fun hl ht => htake _ ?_⟩⟩
  · simp only [State.takeRenew, parseRenew_payload, State.parsed, State.taking_frame, matchLease_none s hm,
      s.taking_answer hn]
  all_goals
    have hmatch := matchLease_matches s hd hm
  · simp only [State.takeRenew, parseRenew_payload, State.parsed, State.taking_frame, hmatch, hl]
    exact s.taking_answer hn .recalled _
  · have hterm : (s.taking Kind.renew f).termOk term = false := by
      rw [← Bool.not_eq_true, State.termOk_iff]
      exact ht
    simp only [State.takeRenew, parseRenew_payload, State.parsed, State.taking_frame, hmatch, hl, hterm,
      Bool.false_eq_true, if_false]
    exact s.taking_answerFault hn .badTerm (some 2)
  · have hterm : (s.taking Kind.renew f).termOk term = true := State.termOk_iff.2 ht
    simp only [State.takeRenew, parseRenew_payload, State.parsed, State.taking_frame, hmatch, hl, hterm, if_true]
    exact State.answerWith_new_same hn (u := (s.taking Kind.renew f).renewLease l.handle term) rfl rfl .done _ false

/-- Settles O19. -/
theorem releaseAnswered : Obligations.ReleaseAnswered := by
  intro s f x handle token hn hf hd
  have hexec := exec_release_new hn
  rw [hf] at hexec
  have htake (u : State) (h : State.takeRelease (handle :: bytes32 token) (frameHost f) (s.taking Kind.release f) = u) :
      exec (.release f) s = .next u := h ▸ hexec
  refine ⟨fun hm => htake _ ?_, fun l hm => htake _ ?_⟩
  · simp only [State.takeRelease, parseRelease_payload, State.parsed, State.taking_frame, matchLease_none s hm,
      s.taking_answer hn]
  · simp only [State.takeRelease, parseRelease_payload, State.parsed, State.taking_frame, matchLease_matches s hd hm]
    exact congrArg State.walk (State.answerWith_new_same hn (u := (s.taking Kind.release f).dropLease l.handle) rfl rfl
      .done [] false)

/-- Settles O20. -/
theorem cancelAnswered : Obligations.CancelAnswered := by
  intro s f x tag hn hf
  have hexec := exec_cancel_new hn
  rw [hf] at hexec
  have htake (u : State) (h : State.takeCancel [tagByte tag] (frameHost f) (s.taking Kind.cancel f) = u) :
      exec (.cancel f) s = .next u := h ▸ hexec
  refine ⟨fun ⟨w, hw, hws, hwt⟩ => htake _ ?_, fun hno => ?_⟩
  · cases hfind : s.lm.waits.find? (fun w => decide (w.session = frameHost f) && decide (w.tag = tag)) with
    | none => exact absurd (List.find?_eq_none.1 hfind w hw) (by simp [hws, hwt])
    | some v =>
      simp only [State.takeCancel, parseCancel_payload, State.parsed, State.taking_frame, hfind]
      exact congrArg State.walk (State.answerWith_new hn (Session.aside_tags (List.filter (fun t => decide (t ≠ tag))))
        (u := ((s.taking Kind.cancel f).dropWait (frameHost f) tag).mapSession (frameHost f)
          (fun x => { x with tags := x.tags.filter (fun t => decide (t ≠ tag)) })) rfl rfl .done [] false)
  · have hfind : s.lm.waits.find? (fun w => decide (w.session = frameHost f) && decide (w.tag = tag)) = none :=
      List.find?_eq_none.2 fun w hw h => hno w hw (by simpa using h)
    have hrun : State.takeCancel [tagByte tag] (frameHost f) (s.taking Kind.cancel f) =
        s.answeredRequest Kind.cancel f (if x.tags.contains tag then .late else .stale) [] := by
      simp only [State.takeCancel, parseCancel_payload, State.parsed, State.taking_frame, hfind, s.taking_tags hn]
      exact s.taking_answer hn _ _
    refine ⟨fun ht => htake _ (hrun.trans ?_), fun ht => htake _ (hrun.trans ?_)⟩
    · rw [if_pos (List.contains_iff_mem.2 ht)]
    · rw [if_neg fun h => ht (List.contains_iff_mem.1 h)]

/-! ### QUERY -/

/-- A holder entry of QUERY, as a sum of the mode bit, the state bit and the holder (R113, R176). -/
theorem holderByte_eq (holder : Addr) (mode state : Bool) :
    (0 : BitVec 2) ++ (if state then (0 : BitVec 1) else 1) ++ (if mode then (1 : BitVec 1) else 0) ++ holder =
      BitVec.ofNat 8 (holder.toNat + (if mode then 16 else 0) + if state then 0 else 32) := by
  revert holder mode state
  decide

theorem holderEntry_eq (now : Instant) (l : Lease) : holderEntry now l =
    [BitVec.ofNat 8 (l.holder.toNat + (if l.mode = .exclusive then 16 else 0) + (if l.state = .held then 0 else 32))] ++
      bytes16 (BitVec.ofNat 16 ((l.expiry - now) / 1000000)) ++ [graceByte now l.state] := by
  have hbyte := holderByte_eq l.holder (decide (l.mode = .exclusive)) (decide (l.state = .held))
  simp only [decide_eq_true_eq] at hbyte
  rw [← hbyte]
  rfl

theorem graceByte_eq (now : Instant) (st : LeaseState) : graceByte now st =
    (match st with | .held => 0xFF | .recalled d _ => BitVec.ofNat 8 ((d - now) / 1000000)) := by
  cases st <;> rfl

/-- Settles O22. -/
theorem queryAnswered : Obligations.QueryAnswered := by
  intro s f x b c hn hf
  have hexec := exec_query_new hn
  rw [hf] at hexec
  have htake (u : State) (h : State.takeQuery [b, c] (frameHost f) (s.taking Kind.query f) = u) :
      exec (.query f) s = .next u := h ▸ hexec
  refine ⟨fun d hd => htake _ ?_, fun r n cls hr hst => htake _ ?_⟩
  · simp only [State.takeQuery, parseQuery, State.parsed, State.taking_frame, hd]
    exact s.taking_deny hn d
  · simp only [State.takeQuery, parseQuery, State.parsed, State.taking_frame, hr, State.queryPayload, hst]
    rw [s.taking_answer hn]
    have hentry : holderEntry s.now = fun l =>
        [BitVec.ofNat 8 (l.holder.toNat + (if l.mode = .exclusive then 16 else 0) + (if l.state = .held then 0 else 32))] ++
          bytes16 (BitVec.ofNat 16 ((l.expiry - s.now) / 1000000)) ++ [graceByte s.now l.state] :=
      funext (holderEntry_eq s.now)
    simp only [hentry, graceByte_eq]
    rfl

end Sys2Proof.Machine
end

section
/-! PROOFS. The deadlines of the Lease Manager (R31, R57, R76), the walk (R52, R53, R55) and tokens (R26). -/

namespace Sys2Proof.Machine

variable {s t u v : State}

/-! ### Tokens -/

/-- The search for a token passes the values that live leases carry, one after the other. -/
theorem freeToken_walked (ls : List Lease) (fuel : Nat) (t : Token) : ∃ k ≤ fuel, freeToken ls fuel t = advanceToken^[k] t ∧
    ∀ j < k, ∃ l ∈ ls, l.token = advanceToken^[j] t := by
  induction fuel generalizing t with
  | zero => exact ⟨0, le_rfl, rfl, fun j hj => absurd hj (Nat.not_lt_zero j)⟩
  | succ fuel ih =>
    unfold freeToken
    split
    next hany =>
      obtain ⟨l, hl, hlt⟩ := List.any_eq_true.1 hany
      obtain ⟨k, hk, he, hcarried⟩ := ih (advanceToken t)
      refine ⟨k + 1, Nat.succ_le_succ hk, he, fun j hj => ?_⟩
      cases j with
      | zero => exact ⟨l, hl, of_decide_eq_true hlt⟩
      | succ j => exact hcarried j (Nat.lt_of_succ_lt_succ hj)
    next => exact ⟨0, Nat.zero_le _, rfl, fun j hj => absurd hj (Nat.not_lt_zero j)⟩

/-- Settles O25. -/
theorem tokensFromCounter : Obligations.TokensFromCounter := by
  refine ⟨fun m hfree => ?_, fun m hlen hc => ?_, fun t => ?_, fun _ _ => rfl⟩
  · have hany : m.leases.any (fun l => decide (l.token = m.tokenCounter)) = false :=
      List.any_eq_false.2 fun l hl he => hfree l hl (of_decide_eq_true he)
    unfold LeaseManager.nextToken
    cases m.leases.length with
    | zero => rfl
    | succ n => simp only [freeToken, hany, Bool.false_eq_true, if_false]
  · obtain ⟨hfresh, hnz⟩ := m.nextToken_free hlen hc
    exact ⟨hnz, fun l hl he => hfresh (he ▸ List.mem_map_of_mem hl), freeToken_walked m.leases m.leases.length m.tokenCounter⟩
  · have hmax : t = 0xFFFFFFFF ↔ t.toNat = 4294967295 :=
      ⟨fun h => by rw [h]; rfl, fun h => BitVec.eq_of_toNat_eq h⟩
    exact if_congr hmax rfl rfl

/-! ### The walk -/

theorem State.walkHandle_eq_some {kept : List Wait} {w : Wait} {hd : Handle} (hon : s.panel.service = .online)
    (hr : (s.slots[w.resource.slot]).state.isReady = true) (hg : s.grantable kept w.hold = true)
    (hf : freeHandle s.lm.leases = some hd) : s.walkHandle kept w = some hd := by
  rw [State.walkHandle, if_pos ⟨hon, hr, hg⟩, hf]

/-- What keeps a walk from granting the record it visits (R52). -/
theorem State.walkHandle_eq_none {kept : List Wait} {w : Wait} (h : s.panel.service = .service ∨
    (s.slots[w.resource.slot]).state.isReady = false ∨ s.grantable kept w.hold = false ∨ TableFull s.lm.leases) :
    s.walkHandle kept w = none := by
  unfold State.walkHandle
  split
  next hc =>
    obtain ⟨hon, hr, hg⟩ := hc
    rcases h with h | h | h | h
    · rw [hon] at h; cases h
    · rw [hr] at h; cases h
    · rw [hg] at h; cases h
    · exact h.freeHandle_eq_none
  next => rfl

/-- A walk takes records from the pool and leaves the others in their order. -/
theorem State.walkFrom_waits (kept rest : List Wait) (s : State) :
    (State.walkFrom kept rest s).lm.waits.Sublist (kept ++ rest) := by
  induction rest generalizing kept s with
  | nil => simp [State.walkFrom]
  | cons w rest ih =>
    cases hw : s.walkHandle kept w with
    | some hd =>
      rw [State.walkFrom_grant hw]
      exact (ih kept _).trans ((List.Sublist.refl kept).append (List.sublist_cons_self w rest))
    | none =>
      rw [State.walkFrom_keep hw]
      simpa using ih (kept ++ [w]) s

/-- Settles O24: the steps of the pass, which looks at the records passed over and not at the pool. -/
theorem walkGrantsInPoolOrder : Obligations.WalkGrantsInPoolOrder := by
  refine ⟨fun s earlier c => State.grantable_iff, fun s kept rest w hd hon hr hg hf => ?_, fun s kept rest w h => ?_,
    fun _ _ => rfl, fun s => ⟨rfl, State.walkFrom_waits [] s.lm.waits s⟩, fun s w rest hd hw hon hr hg hf => ?_,
    fun s => s.walk_service⟩
  · exact (State.walkFrom_grant (State.walkHandle_eq_some hon hr hg (freeHandle_lowest.2 hf))).trans
      (State.walkFrom_setWaits _ _ _ _)
  · exact State.walkFrom_keep (State.walkHandle_eq_none h)
  · have hhandle : s.walkHandle [] w = some hd := State.walkHandle_eq_some hon hr hg (freeHandle_lowest.2 hf)
    rw [State.walk, hw]
    exact State.walkFrom_grant hhandle

/-! ### Deadlines -/

theorem find?_unique {α : Type} {p : α → Bool} {as : List α} {a : α} (ha : a ∈ as) (hp : p a = true)
    (hu : ∀ b ∈ as, p b = true → b = a) : as.find? p = some a := by
  cases hf : as.find? p with
  | none => exact absurd hp (by simpa using List.find?_eq_none.1 hf a ha)
  | some b => rw [hu b (List.mem_of_find?_eq_some hf) (List.find?_some hf)]

/-- Retirements with notices: the holders are told, in the order given, and the records go (R35, R37). -/
theorem State.retireAll_told {r : Reason} {kind : LeaseNotice} (hr : r.notice = some kind) (ls : List Lease) (s : State) :
    s.retireAll r ls = (ls.foldl (fun (v : State) (l : Lease) => v.handNotice l.holder (l.noticeOf kind)) s).keepLeases
      (fun l => ls.all (fun k => decide (l.handle ≠ k.handle))) := by
  induction ls generalizing s with
  | nil => simp [State.retireAll, State.keepLeases]
  | cons k ls ih =>
    have hone : s.retire r k = (s.handNotice k.holder (k.noticeOf kind)).dropLease k.handle := by
      simp only [State.retire, hr]
      rfl
    have hdrop (u : State) : ls.foldl (fun (v : State) (l : Lease) => v.handNotice l.holder (l.noticeOf kind))
        (u.dropLease k.handle) = (ls.foldl (fun (v : State) (l : Lease) => v.handNotice l.holder (l.noticeOf kind))
        u).dropLease k.handle :=
      List.foldl_hom (State.dropLease k.handle) fun _ _ => rfl
    have hstep : s.retireAll r (k :: ls) = (s.retire r k).retireAll r ls := rfl
    rw [hstep, hone, ih, hdrop]
    simp only [State.keepLeases, State.dropLease, List.filter_filter, List.all_cons, List.foldl_cons, Bool.and_comm]

/-- Handles name leases (R19): the records that go with a chosen set are those of the set. -/
theorem HandlesDistinct.keep_others (hd : HandlesDistinct s) (member : Lease → Bool) :
    s.lm.leases.filter (fun l => (s.lm.leases.filter member).all (fun k => decide (l.handle ≠ k.handle))) =
      s.lm.leases.filter (fun l => !member l) := by
  refine List.filter_congr fun l hl => Bool.eq_iff_iff.2 ?_
  simp only [List.all_eq_true, List.mem_filter, decide_eq_true_eq, Bool.not_eq_true', and_imp]
  refine ⟨fun h => ?_, fun hl' k hk hm he => ?_⟩
  · by_contra hm
    exact h l hl (by simpa using hm) rfl
  · obtain rfl := eq_of_nodup_map hd hl hk he
    rw [hl'] at hm
    cases hm

/-- Retirements with notices, of all the leases of a chosen set. -/
theorem State.retireAll_filter (hd : HandlesDistinct s) (hs : s.sessions = v.sessions) (he : s.delivery = v.delivery)
    {r : Reason} {kind : LeaseNotice} (hr : r.notice = some kind) (member : Lease → Bool) : s.retireAll r (s.lm.leases.filter member) =
      { s with
        sessions := ((s.lm.leases.filter member).foldl
          (fun (v : State) (l : Lease) => v.handNotice l.holder (l.noticeOf kind)) v).sessions,
        lm := { s.lm with leases := s.lm.leases.filter (fun l => !member l) } } := by
  have hfold := State.foldl_handNotice_eq Lease.holder (Lease.noticeOf kind) (s.lm.leases.filter member) hs he
  rw [State.retireAll_told hr, hfold, ← hd.keep_others member]
  rfl

theorem HandlesDistinct.find?_handle (hd : HandlesDistinct s) {l : Lease} (hl : l ∈ s.lm.leases) :
    s.lm.leases.find? (fun k => decide (k.handle = l.handle)) = some l :=
  find?_unique hl (decide_eq_true rfl) fun _ hk he => eq_of_nodup_map hd hk hl (of_decide_eq_true he)

/-- The group of a recall whose members share a deadline: its leases and the deadline (R70). -/
theorem groupLeases_eq {ls : List Lease} {g : Arrival} {d : Instant}
    (hd : ∀ l ∈ ls, ∀ d', l.state = .recalled d' g → d' = d) :
    groupLeases ls g = ls.filter (fun l => decide (l.state = .recalled d g)) := by
  refine List.filter_congr fun l hl => Bool.eq_iff_iff.2 ?_
  cases hs : l.state with
  | held => simp
  | recalled d' g' =>
    simp only [decide_eq_true_eq, LeaseState.recalled.injEq]
    exact ⟨fun h => ⟨hd l hl d' (h ▸ hs), h⟩, And.right⟩

theorem groupDeadline_eq {ls : List Lease} {g : Arrival} {d : Instant} (hex : ∃ l ∈ ls, l.state = .recalled d g)
    (hd : ∀ l ∈ ls, ∀ d', l.state = .recalled d' g → d' = d) : groupDeadline ls g = some d := by
  obtain ⟨l, hl, hs⟩ := hex
  unfold groupDeadline
  cases hf : ls.findSome? _ with
  | none =>
    have := List.findSome?_eq_none_iff.1 hf l hl
    simp [hs] at this
  | some e =>
    obtain ⟨k, hk, he⟩ := List.exists_of_findSome?_eq_some hf
    cases hks : k.state with
    | held => simp [hks] at he
    | recalled d' g' =>
      simp only [hks, Option.ite_none_right_eq_some, Option.some.injEq] at he
      obtain ⟨rfl, rfl⟩ := he
      rw [hd k hk _ hks]

theorem groupDeadline_eq_none {ls : List Lease} {g : Arrival} (h : ∀ l ∈ ls, ∀ d, l.state ≠ .recalled d g) :
    groupDeadline ls g = none := by
  refine List.findSome?_eq_none_iff.2 fun l hl => ?_
  cases hs : l.state with
  | held => rfl
  | recalled d g' => exact if_neg fun he : g' = g => h l hl d (hs.trans (congrArg _ he))

/-- Sessions and tags name wait records (R49). -/
theorem WaitsDistinct.dropWait_eq (hw : WaitsDistinct s) {w : Wait} (hm : w ∈ s.lm.waits) :
    s.dropWait w.session w.tag = s.setWaits (s.lm.waits.filter (fun v => decide (v ≠ w))) := by
  have hsame : s.lm.waits.filter (fun v => !(decide (v.session = w.session) && decide (v.tag = w.tag))) =
      s.lm.waits.filter (fun v => decide (v ≠ w)) := by
    refine List.filter_congr fun v hv => Bool.eq_iff_iff.2 ?_
    rw [← Bool.decide_and, ← decide_not, decide_eq_true_eq, decide_eq_true_eq]
    exact not_congr ⟨fun h => eq_of_nodup_map hw hv hm (Prod.ext h.1 h.2), fun h => h ▸ ⟨rfl, rfl⟩⟩
  exact congrArg (fun ws => s.setWaits ws) hsame

/-- Settles O23. -/
theorem deadlinesRetire : Obligations.DeadlinesRetire := by
  refine fun s hd hw => ⟨fun l hl => congrArg Host.Outcome.next ?_, fun h hnone => congrArg Host.Outcome.next ?_,
    fun g d hex hsame => congrArg Host.Outcome.next ?_, fun g hnone => congrArg Host.Outcome.next ?_,
    fun w hm huniq => congrArg Host.Outcome.next ?_, fun n hnone => congrArg Host.Outcome.next ?_⟩
  · simp only [State.expireLease, hd.find?_handle hl]
    rfl
  · have hfind : s.lm.leases.find? (fun l => decide (l.handle = h)) = none :=
      List.find?_eq_none.2 fun l hl => by simpa using hnone l hl
    simp only [State.expireLease, hfind]
  · simp only [State.revokeGroup, groupDeadline_eq hex hsame, groupLeases_eq hsame]
    exact congrArg State.walk (State.retireAll_filter (s := s.reach d) (v := s) hd rfl rfl (r := .revoked) rfl
      (fun l => decide (l.state = .recalled d g)))
  · simp only [State.revokeGroup, groupDeadline_eq_none hnone]
  · have hfind : s.lm.waits.find? (fun v => decide (v.arrival = w.arrival)) = some w :=
      find?_unique hm (decide_eq_true rfl) fun v hv he => huniq v hv (of_decide_eq_true he)
    have hdrop : (s.reach w.deadline).dropWait w.session w.tag = _ := WaitsDistinct.dropWait_eq (s := s.reach w.deadline) hw hm
    simp only [State.timeOutWait, hfind, State.completeWait, hdrop]
    rfl
  · have hfind : s.lm.waits.find? (fun w => decide (w.arrival = n)) = none :=
      List.find?_eq_none.2 fun w hm => by simpa using hnone w hm
    simp only [State.timeOutWait, hfind]

end Sys2Proof.Machine
end

section
/-! PROOFS. OPEN and CLOSE (R88 to R92). -/

namespace Sys2Proof.Machine

variable {s t u v : State} {f : Frame} {x : Session}

/-! ### Accepted frames -/

theorem State.accepting_eq (f : Frame) (s : State) :
    s.accepting f = s.endReception.mapSession (frameHost f) Session.resume := rfl

theorem State.accepting_session? (f : Frame) (s : State) (h : Addr) : (s.accepting f).session? h =
    (s.session? h).map (fun x => if x.host = frameHost f then x.resume else x) :=
  State.mapSession_session? _ _ _ (fun x => (Session.resume_fields x).1) h

theorem State.accepting_found (hx : s.session? (frameHost f) = some x) :
    (s.accepting f).session? (frameHost f) = some x.resume := by
  rw [State.accepting_session?, hx, Option.map_some, if_pos (s.session?_host hx)]

theorem State.accepting_none (hx : s.session? (frameHost f) = none) :
    (s.accepting f).session? (frameHost f) = none := by
  rw [State.accepting_session?, hx, Option.map_none]

theorem State.accepting_of_none (hx : s.session? (frameHost f) = none) : s.accepting f = s.endReception := by
  have hsame : s.sessions.map (fun x => if x.host = frameHost f then x.resume else x) = s.sessions := by
    refine (List.map_congr_left fun y hy => ?_).trans (List.map_id _)
    exact if_neg fun hh => List.find?_eq_none.1 hx y hy (decide_eq_true hh)
  exact congrArg (fun xs => { s.endReception with sessions := xs }) hsame

theorem State.accepting_length (f : Frame) (s : State) : (s.accepting f).sessions.length = s.sessions.length :=
  List.length_map _

theorem Accepts.readSwitches {k kind : Byte} (h : Accepts s k kind f) (sw : Switches) : Accepts (s.readSwitches sw) k kind f :=
  ⟨h.receives, h.short, h.passes⟩

theorem Accepts.tx_none {k kind : Byte} (h : Accepts s k kind f) : s.link.tx = none := (State.receives_iff.1 h.receives).2

/-! ### The close of a session -/

theorem Backplane.close_eq (h : Addr) (b : Backplane) : b.close h = { b with
    queue := b.queue.filter (fun e => decide (e.session ≠ h)),
    cycle := b.cycle.map (fun c =>
      match c.kind with
      | .access k slot ch op reg d => { c with kind := .access k slot ch op reg (d || decide (k = h)) }
      | .identify _ => c) } :=
  congrArg (fun c => { b with queue := b.queue.filter (fun e => decide (e.session ≠ h)), cycle := c })
    (cleared_cycle b.cycle (fun k => decide (k = h)))

theorem Delivery.close_eq (h : Addr) (d : Delivery) :
    d.close h = { d with attempt := d.attempt.filter (fun a => decide (a.host ≠ h)) } := by
  obtain ⟨_ | a, p⟩ := d
  · rfl
  · simp only [Delivery.close, Option.filter_some, decide_eq_true_eq, ite_not]

theorem Link.close_eq {l : Link} (ht : l.tx = none) (h : Addr) : l.close h = { l with
    responses := l.responses.filter (fun r => !(decide (r.host = h) && decide (r.owner = .session))) } := by
  rw [Link.close, ht]
  rfl

/-- While nothing is in transmission, and with handles that name leases, a close is `closed` (R92). -/
theorem State.closeSession_closed (hd : HandlesDistinct s) (ht : s.link.tx = none) (h : Addr) :
    s.closeSession h = s.closed h := by
  have hkeep : s.retireAll .closed (s.lm.leases.filter (fun l => decide (l.holder = h))) =
      s.keepLeases (fun l => decide (l.holder ≠ h)) := by
    have hfilter := hd.keep_others (fun l => decide (l.holder = h))
    simp only [← decide_not] at hfilter
    rw [State.retireAll_closed]
    exact congrArg (fun ls => { s with lm := { s.lm with leases := ls } }) hfilter
  have hleases : s.closeLeases h = ((s.keepLeases (fun l => decide (l.holder ≠ h))).setWaits
      (s.lm.waits.filter (fun w => decide (w.session ≠ h)))).walk := by
    rw [State.closeLeases, hkeep]
    rfl
  have hclose : s.closeSession h = (s.closeLeases h).shed h := rfl
  obtain ⟨-, -, hlink, hbp, -, hbookings, hdelivery, -⟩ := State.closeLeases_frame s h
  rw [hclose, State.shed, hlink, hbp, hbookings, hdelivery, Backplane.close_eq, Delivery.close_eq, Link.close_eq ht, hleases]
  rfl

theorem State.closed_session? (h : Addr) (s : State) : (s.closed h).session? h = none := by
  simp [State.closed, State.session?]

theorem State.closed_panel (h : Addr) (s : State) : (s.closed h).panel = s.panel := by
  simp [State.closed]

theorem Accepts.exec_open {sw : Switches} (ha : Accepts s FrameKind.request Kind.openSession f) :
    exec (.openSession sw f) s = .next (State.takeOpen f.seq (frameHost f) ((s.readSwitches sw).accepting f)) :=
  congrArg Host.Outcome.next (State.takeFrame_accepts _ (ha.readSwitches sw) _)

/-- Settles O27. -/
theorem closeRemovesSession : Obligations.CloseRemovesSession := by
  intro s f x hn hf hd
  have hd' : HandlesDistinct (s.taking Kind.closeSession f) := hd
  have htx : (s.taking Kind.closeSession f).link.tx = none := hn.toAccepts.tx_none
  refine ⟨?_, State.closed_session? _ _⟩
  rw [exec_closeSession_new hn, hf, ← State.closeSession_closed hd' htx]
  rfl

theorem State.closeDropsClear_iff (h : Addr) (s : State) : s.closeDropsClear h = true ↔ s.panel.clearCommitted = true ∧
    ∃ r ∈ s.link.responses, r.host = h ∧ r.owner = .session ∧ r.clears = true := by
  simp [State.closeDropsClear, Response.isOf, and_assoc]

theorem State.openSession_eq {h : Addr} {c : SessionClass} (seq : Byte) (replaced : Bool) (hc : u.panel.classOf h = c)
    (hr : u.link.receive = .idle) : u.openSession h seq replaced = { u with
      link := u.link.answeredNew (takenResponse h seq .done (openPayload c replaced)),
      sessions := u.sessions ++ [Session.opened h c seq replaced] } := by
  subst hc
  rw [Link.answeredNew, ← hr]
  rfl

theorem State.readSwitches_same {sw : Switches} (h : u.panel.switches = sw) : u.readSwitches sw = u := by
  subst h
  rfl

/-- Settles O26. -/
theorem openSessions : Obligations.OpenSessions := by
  intro sw f s ha
  dsimp only
  rw [ha.exec_open]
  refine ⟨fun hx hroom => congrArg Host.Outcome.next ?_, fun hx hfull => congrArg Host.Outcome.next ?_,
    fun x hx hseq hkind hfree => congrArg Host.Outcome.next ?_, fun x r hx hseq hkind hfree hr => congrArg Host.Outcome.next ?_,
    fun x hx hnew hd => ?_⟩
  · have hu : ((s.readSwitches sw).accepting f).session? (frameHost f) = none := State.accepting_none (s := s.readSwitches sw) hx
    have hlen : ((s.readSwitches sw).accepting f).sessions.length < Config.maxSessions := by
      rw [State.accepting_length]
      exact hroom
    simp only [State.takeOpen, hu, if_pos hlen]
    rw [State.accepting_of_none (s := s.readSwitches sw) hx]
    rfl
  · have hu : ((s.readSwitches sw).accepting f).session? (frameHost f) = none := State.accepting_none (s := s.readSwitches sw) hx
    have hlen : ¬ ((s.readSwitches sw).accepting f).sessions.length < Config.maxSessions := by
      rw [State.accepting_length]
      exact Nat.not_lt.2 hfull
    simp only [State.takeOpen, hu, if_neg hlen]
    rfl
  · have hu : ((s.readSwitches sw).accepting f).session? (frameHost f) = some x.resume :=
      State.accepting_found (s := s.readSwitches sw) hx
    simp only [State.takeOpen, hu, Session.resume_fields, hfree, if_true, hseq, hkind, and_self, Kind.openSession]
    rfl
  · have hu : ((s.readSwitches sw).accepting f).session? (frameHost f) = some x.resume :=
      State.accepting_found (s := s.readSwitches sw) hx
    have hrepeat : f.seq = x.lastSeq ∧ x.lastKind = Kind.openSession := ⟨hseq, hkind⟩
    simp only [State.takeOpen, hu, Session.resume_fields, if_pos hrepeat, hfree, Bool.false_eq_true, if_false, hr]
    rfl
  · have hu : ((s.readSwitches sw).accepting f).session? (frameHost f) = some x.resume :=
      State.accepting_found (s := s.readSwitches sw) hx
    have hnot : ¬ (f.seq = x.lastSeq ∧ x.lastKind = Kind.openSession) := hnew
    simp only [State.takeOpen, hu, Session.resume_fields, if_neg hnot]
    have hclose : ((s.readSwitches sw).accepting f).closeSession (frameHost f) =
        ((s.readSwitches sw).accepting f).closed (frameHost f) :=
      State.closeSession_closed (s := (s.readSwitches sw).accepting f) hd ha.tx_none _
    have hdrop : ((s.readSwitches sw).accepting f).closeDropsClear (frameHost f) = true ↔ s.panel.clearCommitted = true ∧
        ∃ r ∈ s.link.responses, r.host = frameHost f ∧ r.owner = .session ∧ r.clears = true := by
      refine (State.closeDropsClear_iff _ _).trans ?_
      rfl
    have hopen : (((s.readSwitches sw).accepting f).closed (frameHost f)).openSession (frameHost f) f.seq true = _ :=
      State.openSession_eq f.seq true (congrArg (Panel.classOf · (frameHost f)) (State.closed_panel _ _)) rfl
    refine ⟨fun hno => congrArg Host.Outcome.next ?_, fun hyes => congrArg Host.Outcome.next ?_⟩
    · rw [State.replaceSession, if_neg (mt hdrop.1 hno), hclose, hopen]
      rfl
    · rw [State.replaceSession, if_pos (hdrop.2 hyes), hclose, hopen, ← State.linkClear_eq]
      refine congrArg State.linkClear (State.readSwitches_same ?_).symm
      exact congrArg Panel.switches (State.closed_panel (frameHost f) ((s.readSwitches sw).accepting f))

end Sys2Proof.Machine
end

section
/-! PROOFS. Frames and requests by their classification (R86, R96 to R101, R107 to R109, R167, R168). -/

namespace Sys2Proof.Machine

variable {s t u v : State} {f : Frame} {x : Session} {c : Instr} {kind : Byte}

/-! ### The format check -/

theorem tagOf_eq_none {b : Byte} (h : 15 < b.toNat) : tagOf b = none := if_neg (by omega)

theorem tagOf_eq_some {b : Byte} (h : ¬ 15 < b.toNat) : tagOf b = some (b.setWidth 4) := if_pos (by omega)

theorem flag_cases (b : Byte) : 1 < b.toNat ∧ b ≠ 0x00 ∧ b ≠ 0x01 ∨ b = 0x00 ∨ b = 0x01 := by
  by_cases h0 : b = 0x00
  · exact .inr (.inl h0)
  · by_cases h1 : b = 0x01
    · exact .inr (.inr h1)
    · refine .inl ⟨?_, h0, h1⟩
      bv_omega

theorem modeOf_eq_none {b : Byte} (h : 1 < b.toNat) : modeOf b = none := by
  rcases flag_cases b with ⟨-, h0, h1⟩ | rfl | rfl
  · exact (if_neg h0).trans (if_neg h1)
  · simp at h
  · simp at h

theorem bookingModeOf_eq_none {b : Byte} (h : 1 < b.toNat) : bookingModeOf b = none := by
  rcases flag_cases b with ⟨-, h0, h1⟩ | rfl | rfl
  · exact (if_neg h0).trans (if_neg h1)
  · simp at h
  · simp at h

theorem flagOf_eq_none {b : Byte} (h : 1 < b.toNat) : flagOf b = none := by
  rcases flag_cases b with ⟨-, h0, h1⟩ | rfl | rfl
  · exact (if_neg h0).trans (if_neg h1)
  · simp at h
  · simp at h

theorem modeOf_isSome {b : Byte} (h : ¬ 1 < b.toNat) : ∃ m, modeOf b = some m := by
  rcases flag_cases b with ⟨h', -⟩ | rfl | rfl
  · exact absurd h' h
  · exact ⟨_, rfl⟩
  · exact ⟨_, rfl⟩

/-! A payload of the wrong length is MALFORMED without an index. -/

theorem parseEmpty_length {p : List Byte} (h : p.length ≠ 0) : parseEmpty p = .error (malformed none) := by
  cases p with
  | nil => exact absurd rfl h
  | cons => rfl

theorem parseAcquire_length {p : List Byte} (h : p.length ≠ 8) : parseAcquire p = .error (malformed none) := by
  unfold parseAcquire
  split
  · exact absurd rfl h
  · rfl

theorem parseRenew_length {p : List Byte} (h : p.length ≠ 7) : parseRenew p = .error (malformed none) := by
  unfold parseRenew
  split
  · exact absurd rfl h
  · rfl

theorem parseRelease_length {p : List Byte} (h : p.length ≠ 5) : parseRelease p = .error (malformed none) := by
  unfold parseRelease
  split
  · exact absurd rfl h
  · rfl

theorem parseCancel_length {p : List Byte} (h : p.length ≠ 1) : parseCancel p = .error (malformed none) := by
  unfold parseCancel
  split
  · exact absurd rfl h
  · rfl

theorem parseQuery_length {p : List Byte} (h : p.length ≠ 2) : parseQuery p = .error (malformed none) := by
  unfold parseQuery
  split
  · exact absurd rfl h
  · rfl

theorem parseAccess_length {p : List Byte} (h : p.length ≠ 8) (h' : p.length ≠ 10) :
    parseAccess p = .error (malformed none) := by
  unfold parseAccess
  split
  · exact absurd rfl h
  · exact absurd rfl h'
  · rfl

theorem parseBook_length {p : List Byte} (h : p.length ≠ 2) : parseBook p = .error (malformed none) := by
  unfold parseBook
  split
  · exact absurd rfl h
  · rfl

theorem parseSlot_length {p : List Byte} (h : p.length ≠ 1) : parseSlot p = .error (malformed none) := by
  unfold parseSlot
  split
  · exact absurd rfl h
  · rfl

theorem parseConfigure_length {p : List Byte} (h : p.length ≠ 5) : parseConfigure p = .error (malformed none) := by
  unfold parseConfigure
  split
  · exact absurd rfl h
  · rfl

/-- A format check of the length alone. -/
theorem length_fault {n : Nat} {p : List Byte} {i : Option FieldIndex}
    (h : (if p.length = n then none else some none) = some i) : p.length ≠ n ∧ i = none := by
  split_ifs at h with hn
  exact ⟨hn, (Option.some.inj h).symm⟩

theorem parseAcquire_fault {p : List Byte} {i : Option FieldIndex} (h : formatFault Kind.acquire p = some i) :
    parseAcquire p = .error (malformed i) := by
  have hform : formatFault Kind.acquire p = if p.length ≠ 8 then some none
    else if 15 < (p.getD 0 0).toNat then some (some 0)
    else if 1 < (p.getD 3 0).toNat then some (some 3)
    else if 1 < (p.getD 7 0).toNat then some (some 6)
    else none := rfl
  rw [hform] at h
  split_ifs at h with hlen htag hmode hflag <;> obtain rfl := Option.some.inj h
  · exact parseAcquire_length hlen
  all_goals
    match p, not_not.1 hlen with
    | [tag, slot, channel, mode, t1, t0, waitLimit, urgent], _ => ?_
  · have ht : tagOf tag = none := tagOf_eq_none htag
    simp only [parseAcquire, ht]
  · have ht : tagOf tag = some _ := tagOf_eq_some htag
    have hm : modeOf mode = none := modeOf_eq_none hmode
    simp only [parseAcquire, ht, hm]
  · have ht : tagOf tag = some _ := tagOf_eq_some htag
    obtain ⟨m, hm⟩ : ∃ m, modeOf mode = some m := modeOf_isSome hmode
    have hu : flagOf urgent = none := flagOf_eq_none hflag
    simp only [parseAcquire, ht, hm, hu]

theorem parseCancel_fault {p : List Byte} {i : Option FieldIndex} (h : formatFault Kind.cancel p = some i) :
    parseCancel p = .error (malformed i) := by
  have hform : formatFault Kind.cancel p =
    if p.length ≠ 1 then some none else if 15 < (p.getD 0 0).toNat then some (some 0) else none := rfl
  rw [hform] at h
  split_ifs at h with hlen htag <;> obtain rfl := Option.some.inj h
  · exact parseCancel_length hlen
  · match p, not_not.1 hlen with
    | [tag], _ =>
      have ht : tagOf tag = none := tagOf_eq_none htag
      simp only [parseCancel, ht]

theorem parseBook_fault {p : List Byte} {i : Option FieldIndex} (h : formatFault Kind.book p = some i) :
    parseBook p = .error (malformed i) := by
  have hform : formatFault Kind.book p =
    if p.length ≠ 2 then some none else if 1 < (p.getD 1 0).toNat then some (some 1) else none := rfl
  rw [hform] at h
  split_ifs at h with hlen hmode <;> obtain rfl := Option.some.inj h
  · exact parseBook_length hlen
  · match p, not_not.1 hlen with
    | [slot, mode], _ =>
      have hm : bookingModeOf mode = none := bookingModeOf_eq_none hmode
      simp only [parseBook, hm]

theorem parseAccess_fault {p : List Byte} {i : Option FieldIndex} (h : formatFault Kind.access p = some i) :
    parseAccess p = .error (malformed i) := by
  have hform : formatFault Kind.access p = if p.length ≤ 6 then some none
    else if (p.getD 6 0).toNat = 1 then if p.length = 10 then none else some none
    else if p.length ≠ 8 then some none
    else if 1 < (p.getD 6 0).toNat then some (some 3)
    else none := rfl
  rw [hform] at h
  split_ifs at h with hshort hwrite hlen hlen hop <;> obtain rfl := Option.some.inj h
  · exact parseAccess_length (by omega) (by omega)
  · by_cases h8 : p.length = 8
    · match p, h8 with
      | [handle, b3, b2, b1, b0, channel, op, register], _ =>
        have ho : op = 0x01 := BitVec.eq_of_toNat_eq hwrite
        subst ho
        rfl
    · exact parseAccess_length h8 hlen
  · by_cases h10 : p.length = 10
    · match p, h10 with
      | [handle, b3, b2, b1, b0, channel, op, register, d1, d0], _ =>
        have ho : op ≠ 0x01 := fun e => hwrite (congrArg BitVec.toNat e)
        exact if_neg ho
    · exact parseAccess_length hlen h10
  · match p, not_not.1 hlen with
    | [handle, b3, b2, b1, b0, channel, op, register], _ =>
      have ho : 1 < op.toNat := hop
      have h0 : op ≠ 0x00 := by rintro rfl; simp at ho
      have h1 : op ≠ 0x01 := by rintro rfl; simp at ho
      exact (if_neg h0).trans (if_neg h1)

/-! ### Requests by their kind -/

/-- Who answers a request whose host has no session: the Panel Block a PROBE, the Session Manager any other (R86). -/
def sessionless (kind seq : Byte) : Addr → State → State :=
  if kind = Kind.probe then State.probeNoSession seq else State.noSession seq

/-- Every request other than OPEN goes through the same classification. -/
theorem exec_request (h : requestOf c = some (kind, f)) :
    ∃ run, ∀ s, exec c s = .next (s.takeRequest kind f (sessionless kind f.seq) run) := by
  cases c with
  | unknownRequestKind k g =>
    rw [requestOf] at h
    split_ifs at h with hk
    cases h
    have hp : kind ≠ Kind.probe := by
      rintro rfl
      exact hk rfl
    refine ⟨State.takeUnknown, fun s => congrArg Host.Outcome.next ?_⟩
    rw [if_neg hk, sessionless, if_neg hp]
  | closeSession | fetchFault | acquire | renew | release | cancel | query | access | book | unbook | rearm | probe
  | configure | resetController =>
    cases h
    exact ⟨_, fun _ => rfl⟩
  | _ => cases h

/-- A new request of the wrong form for its kind (R109). -/
theorem State.parsed_malformed (hn : NewRequest s kind f x) {α : Type} {fields : Except Denial α} {i : Option FieldIndex}
    (h : fields = .error (malformed i)) (run : α → State → State) :
    (s.taking kind f).parsed (frameHost f) fields run = s.deniedRequest kind f (.fault .malformed i) := by
  rw [h]
  exact s.taking_deny hn (malformed i)

theorem formatFault_unknown {p : List Byte} (h : kind ∉ requestKinds) : formatFault kind p = none := by
  simp only [requestKinds, List.mem_cons, List.not_mem_nil, or_false, not_or] at h
  simp only [formatFault, Kind.closeSession, Kind.fetchFault, Kind.resetController, Kind.acquire, Kind.renew, Kind.release,
    Kind.cancel, Kind.query, Kind.access, Kind.book, Kind.unbook, Kind.rearm, Kind.configure, h, or_self, if_false]

/-- Settles O29. -/
theorem unknownAndMalformedRequests : Obligations.UnknownAndMalformedRequests := by
  refine ⟨fun s f x kind hn hk => congrArg Host.Outcome.next ?_, fun s c f x kind i hc hn hi => ?_⟩
  · rw [if_neg (by simpa using hk), s.takeRequest_new hn]
    exact s.taking_answerFault hn _ _
  · cases c with
    | closeSession =>
      cases hc
      obtain ⟨hlen, rfl⟩ := length_fault hi
      exact (exec_closeSession_new hn).trans
        (congrArg Host.Outcome.next (State.parsed_malformed hn (parseEmpty_length hlen) _))
    | fetchFault =>
      cases hc
      obtain ⟨hlen, rfl⟩ := length_fault hi
      exact (exec_fetchFault_new hn).trans
        (congrArg Host.Outcome.next (State.parsed_malformed hn (parseEmpty_length hlen) _))
    | acquire =>
      cases hc
      exact (exec_acquire_new hn).trans (congrArg Host.Outcome.next (State.parsed_malformed hn (parseAcquire_fault hi) _))
    | renew =>
      cases hc
      obtain ⟨hlen, rfl⟩ := length_fault hi
      exact (exec_renew_new hn).trans (congrArg Host.Outcome.next (State.parsed_malformed hn (parseRenew_length hlen) _))
    | release =>
      cases hc
      obtain ⟨hlen, rfl⟩ := length_fault hi
      exact (exec_release_new hn).trans
        (congrArg Host.Outcome.next (State.parsed_malformed hn (parseRelease_length hlen) _))
    | cancel =>
      cases hc
      exact (exec_cancel_new hn).trans (congrArg Host.Outcome.next (State.parsed_malformed hn (parseCancel_fault hi) _))
    | query =>
      cases hc
      obtain ⟨hlen, rfl⟩ := length_fault hi
      exact (exec_query_new hn).trans (congrArg Host.Outcome.next (State.parsed_malformed hn (parseQuery_length hlen) _))
    | access =>
      cases hc
      exact (exec_access_new hn).trans (congrArg Host.Outcome.next (State.parsed_malformed hn (parseAccess_fault hi) _))
    | book =>
      cases hc
      exact (exec_book_new hn).trans (congrArg Host.Outcome.next (State.parsed_malformed hn (parseBook_fault hi) _))
    | unbook =>
      cases hc
      obtain ⟨hlen, rfl⟩ := length_fault hi
      exact (exec_unbook_new hn).trans (congrArg Host.Outcome.next (State.parsed_malformed hn (parseSlot_length hlen) _))
    | rearm =>
      cases hc
      obtain ⟨hlen, rfl⟩ := length_fault hi
      exact (exec_rearm_new hn).trans (congrArg Host.Outcome.next (State.parsed_malformed hn (parseSlot_length hlen) _))
    | probe => cases hc; cases hi
    | configure =>
      cases hc
      obtain ⟨hlen, rfl⟩ := length_fault hi
      exact (exec_configure_new hn).trans
        (congrArg Host.Outcome.next (State.parsed_malformed hn (parseConfigure_length hlen) _))
    | resetController =>
      cases hc
      obtain ⟨hlen, rfl⟩ := length_fault hi
      exact (exec_resetController_new hn).trans
        (congrArg Host.Outcome.next (State.parsed_malformed hn (parseEmpty_length hlen) _))
    | unknownRequestKind k g =>
      rw [requestOf] at hc
      split_ifs at hc with hk
      cases hc
      rw [formatFault_unknown (by simpa using hk)] at hi
      cases hi
    | _ => cases hc

/-! ### Requests that are not new -/

/-- What an accepted request of a host with a session comes to (R96). -/
theorem exec_request_open (hc : requestOf c = some (kind, f)) (ha : Accepts s FrameKind.request kind f)
    (hx : s.session? (frameHost f) = some x) :
    ∃ run, exec c s = .next ((s.accepting f).sequenced x.resume kind f.seq run) := by
  obtain ⟨run, hrun⟩ := exec_request hc
  refine ⟨run (frameHost f), (hrun s).trans (congrArg Host.Outcome.next ?_)⟩
  rw [State.takeRequest, State.takeFrame_accepts _ ha, ← State.accepting_eq, State.accepting_found hx]

theorem State.reply_accepting (f : Frame) (st : Status) (p : List Byte) (o : Owner) (s : State) :
    (s.accepting f).reply (frameHost f) f.seq st p o = s.repliedTo f st p o := rfl

/-- Settles O30. -/
theorem requestsNotTaken : Obligations.RequestsNotTaken := by
  refine fun s c f kind hc ha => ⟨fun hx => ?_, fun x hx => ?_⟩
  · obtain ⟨run, hrun⟩ := exec_request hc
    have hexec : exec c s = .next (sessionless kind f.seq (frameHost f) (s.accepting f)) := by
      refine (hrun s).trans (congrArg Host.Outcome.next ?_)
      rw [State.takeRequest, State.takeFrame_accepts _ ha, ← State.accepting_eq, State.accepting_none hx]
    refine ⟨fun hk => ?_, fun hk => ?_⟩
    · rw [hexec, sessionless, if_neg hk]
      exact congrArg Host.Outcome.next (State.reply_accepting f .noSession [] .noSession s)
    · have hpayload : (s.accepting f).probePayload = s.probePayload :=
        State.probePayload_congr rfl (State.accepting_length f s) rfl rfl
      rw [hexec, sessionless, if_pos hk, State.probeNoSession, hpayload, State.reply_accepting]
  · obtain ⟨run, hrun⟩ := exec_request_open hc ha hx
    have hhost := s.session?_host hx
    have hne : x.lastSeq ≠ x.lastSeq + 1 := by bv_omega
    rw [hrun]
    refine ⟨fun hseq hbusy => congrArg Host.Outcome.next ?_, fun hseq hbusy => congrArg Host.Outcome.next ?_,
      fun r hseq hfree hr => congrArg Host.Outcome.next ?_⟩
    · simp only [State.sequenced, Session.resume_fields, if_pos hseq, hbusy, if_true, hhost, State.reply_accepting]
    · rw [hseq]
      simp only [State.sequenced, Session.resume_fields, if_neg hne, hbusy, if_true]
    · simp only [State.sequenced, Session.resume_fields, hseq, if_neg hne, hfree, if_true, Bool.false_eq_true, if_false, hr,
        hhost]
      rw [← hseq, State.reply_accepting]

theorem FaultRecord.mark_eq (old : Option FaultRecord) (code : FaultCode) (k n : Byte) (i : Option FieldIndex) :
    FaultRecord.mark old code k n i = faultAfter old code k n i := by
  cases old <;> rfl

/-- Settles O31. -/
theorem sequenceFaultAnswered : Obligations.SequenceFaultAnswered := by
  intro s c f kind x hc ha hx hne hne'
  obtain ⟨run, hrun⟩ := exec_request_open hc ha hx
  have hhost := s.session?_host hx
  have hfault : (s.accepting f).sequenced x.resume kind f.seq run = (s.accepting f).sequenceFault x.resume kind f.seq := by
    simp only [State.sequenced, Session.resume_fields, if_neg hne, if_neg hne']
  refine ⟨fun hbusy => ?_, fun hfree => ?_⟩ <;> rw [hrun, hfault]
  · simp only [State.sequenceFault, Session.resume_fields, hhost, hbusy, if_true, Session.markFault, FaultRecord.mark_eq]
    rfl
  · simp only [State.sequenceFault, Session.resume_fields, hhost, hfree, Bool.false_eq_true, if_false, Session.markFault,
      FaultRecord.mark_eq]
    rfl

/-! ### Reception -/

theorem accepted_iff {node : Addr} {frameKind : Byte} : accepted node frameKind kind f = true ↔
    f.crc = crc16 ([f.dest, f.src, frameKind, f.seq, kind, BitVec.ofNat 8 f.payload.length] ++ f.payload) ∧
    node ≠ 0 ∧ f.dest.toNat = node.toNat ∧
    1 ≤ f.src.toNat ∧ f.src.toNat ≤ 15 ∧ f.src.toNat ≠ node.toNat ∧ (frameKind = 0x01 ∨ frameKind = 0x05) := by
  have hbyte (b : Byte) : b = addrByte node ↔ b.toNat = node.toNat := by
    have hnode : (addrByte node).toNat = node.toNat := by
      have := node.isLt
      simp [addrByte]
      omega
    exact ⟨fun h => h ▸ hnode, fun h => BitVec.eq_of_toNat_eq (h.trans hnode.symm)⟩
  have hsrc : f.src ≠ 0 ↔ 1 ≤ f.src.toNat :=
    ⟨fun h => Nat.one_le_iff_ne_zero.2 fun e => h (BitVec.eq_of_toNat_eq e), fun h e => by rw [e] at h; simp at h⟩
  simp only [accepted, Bool.and_eq_true, Bool.or_eq_true, decide_eq_true_eq, ne_eq, hbyte, and_assoc]
  rw [← ne_eq f.src, hsrc]
  exact Iff.rfl

theorem frameHost_toNat {node : Addr} {frameKind : Byte} (h : accepted node frameKind kind f = true) :
    (frameHost f).toNat = f.src.toNat := by
  obtain ⟨-, -, -, -, htop, -⟩ := accepted_iff.1 h
  simp [frameHost]
  omega

/-- A frame that fails a test, or is too long, is discarded (R167, R168). -/
theorem State.takeFrame_discards {frameKind : Byte} (hr : s.receives = true)
    (h : accepted s.panel.nodeAddress frameKind kind f = false ∨ 96 < f.payload.length) (take : Addr → State → State) :
    s.takeFrame frameKind kind f take = s.endReception := by
  have hnot : ¬ (f.payload.length ≤ Config.maxPayload ∧ accepted s.panel.nodeAddress frameKind kind f = true) := by
    rintro ⟨hlen, hacc⟩
    rcases h with h | h
    · rw [hacc] at h; cases h
    · exact absurd hlen (Nat.not_le.2 h)
  rw [State.takeFrame, if_pos hr, if_neg hnot]
  rfl

/-- Settles O32. -/
theorem reception : Obligations.Reception := by
  refine fun s => ⟨fun _ _ _ _ => accepted_iff, fun _ _ _ _ h => frameHost_toNat h,
    State.receives_iff.trans and_comm, fun hr => congrArg Host.Outcome.next (if_pos hr),
    fun hr => congrArg Host.Outcome.next (if_neg (by simp [hr])), rfl, fun frameKind kind f h => congrArg Host.Outcome.next ?_,
    fun c kind f hc => ?_, fun kind f => ⟨fun hr => congrArg Host.Outcome.next (s.takeFrame_deaf hr _),
      fun hr h => congrArg Host.Outcome.next (State.takeFrame_discards hr h _)⟩,
    fun sw f => ⟨fun hr => congrArg Host.Outcome.next ((s.readSwitches sw).takeFrame_deaf hr _),
      fun hr h => congrArg Host.Outcome.next (State.takeFrame_discards (s := s.readSwitches sw) hr h _)⟩⟩
  · refine if_neg fun ⟨hlen, hacc⟩ => ?_
    rcases h with h | h
    · rw [hacc] at h; cases h
    · exact absurd hlen (Nat.not_le.2 h)
  · obtain ⟨run, hrun⟩ := exec_request hc
    refine ⟨fun hr => ?_, fun hr h => ?_⟩ <;> rw [hrun, State.takeRequest]
    · exact congrArg Host.Outcome.next (s.takeFrame_deaf hr _)
    · exact congrArg Host.Outcome.next (State.takeFrame_discards hr h _)

end Sys2Proof.Machine
end

section
/-! PROOFS. The Delivery Unit and the transmitter (R147, R159 to R162, R169, R170). -/

namespace Sys2Proof.Machine

variable {s t u v : State} {f : Frame} {x : Session}

/-! ### The head of a queue -/

/-- The numbers in a queue are distinct, so those behind the head are not the head's. -/
theorem seq_ne_of_nodup {e : Entry} {rest : List Entry} (hn : ((e :: rest).map Entry.seq).Nodup) :
    ∀ b ∈ rest, b.seq ≠ e.seq := by
  intro b hb he
  rw [List.map_cons, List.nodup_cons] at hn
  exact hn.1 (he ▸ List.mem_map_of_mem hb)

theorem headNumber_ne {e : Entry} {rest : List Entry} (hn : ((e :: rest).map Entry.seq).Nodup) :
    headNumber rest ≠ headNumber (e :: rest) := by
  intro h
  obtain ⟨b, bs, rfl, hb⟩ := headNumber_eq_some.1 (h.trans (headNumber_cons e rest))
  exact seq_ne_of_nodup hn b List.mem_cons_self hb

theorem find?_head (e : Entry) (rest : List Entry) :
    (e :: rest).find? (fun b => decide (b.seq = e.seq)) = some e := by
  simp

/-- The ACK of the head (R161, R162). -/
theorem OutboundQueue.acked_head {q : OutboundQueue} {e : Entry} {rest : List Entry} (he : q.entries = e :: rest)
    (hn : (q.entries.map Entry.seq).Nodup) : q.acked e.seq =
      { entries := rest, counter := q.counter, attempts := 0, contended := none,
        marker := match e.body with
          | .notice _ (some true) => if q.marker = .reported then .clear else q.marker
          | _ => q.marker } := by
  rw [he] at hn
  have hrest : (e :: rest).filter (fun b => decide (b.seq ≠ e.seq)) = rest := by
    rw [List.filter_cons_of_neg (by simp)]
    exact List.filter_eq_self.2 fun b hb => decide_eq_true (seq_ne_of_nodup hn b hb)
  have hmarker : Marker.acked e.lost q.marker = match e.body with
      | .notice _ (some true) => if q.marker = .reported then .clear else q.marker
      | _ => q.marker := by
    obtain ⟨seq, _ | ⟨n, _ | _ | _⟩⟩ := e <;> cases q.marker <;> rfl
  rw [← hmarker]
  simp only [OutboundQueue.acked, OutboundQueue.withEntries, he, hrest, if_neg (headNumber_ne hn), find?_head]
  rfl

theorem OutboundQueue.ackedTag_head {q : OutboundQueue} {e : Entry} {rest : List Entry} (he : q.entries = e :: rest) :
    q.ackedTag e.seq = e.tag? := by
  simp only [OutboundQueue.ackedTag, he, find?_head]
  obtain ⟨seq, _ | _⟩ := e <;> rfl

/-- The session of the entry whose ACK is taken. -/
theorem Session.acked_head {e : Entry} {rest : List Entry} (he : x.out.entries = e :: rest)
    (hn : (x.out.entries.map Entry.seq).Nodup) : Session.acked e.seq x = { x with
      tags := (match e.body with
        | .completion tag _ => x.tags.filter (fun k => decide (k ≠ tag))
        | .notice _ _ => x.tags),
      out := { entries := rest, counter := x.out.counter, attempts := 0, contended := none,
               marker := match e.body with
                 | .notice _ (some true) => if x.out.marker = .reported then .clear else x.out.marker
                 | _ => x.out.marker } } := by
  rw [Session.acked, OutboundQueue.acked_head he hn, OutboundQueue.ackedTag_head he]
  obtain ⟨seq, _ | _⟩ := e <;> rfl

theorem Session.resume_out (x : Session) : x.resume.out.entries = x.out.entries ∧ x.resume.out.counter = x.out.counter ∧
    x.resume.out.marker = x.out.marker ∧ x.resume.delivery = .delivering := by
  unfold Session.resume
  split
  next => exact ⟨rfl, rfl, rfl, rfl⟩
  next h => exact ⟨rfl, rfl, rfl, h⟩

/-! ### Changes of one session's record -/

theorem State.mapSession_found {h : Addr} {g : Session → Session} (hg : ∀ x, (g x).host = x.host)
    (hx : s.session? h = some x) : (s.mapSession h g).session? h = some (g x) := by
  rw [State.mapSession_session? s h g hg, hx, Option.map_some, if_pos (s.session?_host hx)]

theorem OthersSame.mapSession (s : State) (h : Addr) {g : Session → Session} (hg : ∀ x, (g x).host = x.host) :
    OthersSame h s (s.mapSession h g) :=
  fun k hk => s.mapSession_other h g hg k hk

theorem OthersSame.trans {h : Addr} (ht : OthersSame h s t) (hu : OthersSame h t u) : OthersSame h s u :=
  fun k hk => (hu k hk).trans (ht k hk)

theorem State.flying_eq_some_iff {h : Addr} {n : Byte} :
    s.flying h = some n ↔ ∃ a, s.delivery.attempt = some a ∧ a.host = h ∧ a.seq = n := by
  unfold State.flying
  cases s.delivery.attempt with
  | none => simp
  | some a => simp

theorem Accepts.exec_ack {kind : Byte} (ha : Accepts s FrameKind.ack kind f) :
    exec (.ack kind f) s = .next ((s.accepting f).takeAck f.seq (frameHost f)) :=
  congrArg Host.Outcome.next (State.takeFrame_accepts _ ha _)

/-- Settles O33. -/
theorem ackTaken : Obligations.AckTaken := by
  intro s kind f ha
  refine ⟨fun a x e rest hatt hhost hseq hx he hes hn => ?_, fun hno => ?_⟩
  · have hfly : (s.accepting f).flying (frameHost f) = some f.seq :=
      State.flying_eq_some_iff.2 ⟨a, hatt, hhost, hseq⟩
    have hexec : exec (.ack kind f) s = .next ((s.accepting f).acknowledge (frameHost f) f.seq) :=
      ha.exec_ack.trans (congrArg Host.Outcome.next (if_pos hfly))
    refine ⟨_, hexec, rfl, ?_, ?_⟩
    · exact (OthersSame.mapSession s.endReception _ (fun x => (Session.resume_fields x).1)).trans
        (OthersSame.mapSession (s.accepting f) _ (g := Session.acked f.seq) fun _ => rfl)
    · obtain ⟨hentries, hcounter, hmarker, hdel⟩ := x.resume_out
      have hfound := State.mapSession_found (g := Session.acked f.seq) (fun _ => rfl) (State.accepting_found hx)
      have hacked := Session.acked_head (hentries.trans he) (hentries.symm ▸ hn)
      refine hfound.trans (congrArg some ((hes ▸ hacked).trans ?_))
      unfold Session.resume
      split
      next => rfl
      next hd =>
        obtain ⟨_, _, _, _, _, _, _, _, delivery, _⟩ := x
        obtain rfl : delivery = .delivering := hd
        rfl
  · have hfly : (s.accepting f).flying (frameHost f) ≠ some f.seq := by
      rw [Ne, State.flying_eq_some_iff]
      rintro ⟨a, hatt, hhost, hseq⟩
      exact hno a hatt ⟨hhost, hseq⟩
    exact ha.exec_ack.trans (congrArg Host.Outcome.next (if_neg hfly))

/-! ### The ends of transmissions -/

theorem OutboundQueue.contend_head {e : Entry} {rest : List Entry} {q : OutboundQueue} (he : q.entries = e :: rest)
    (hn : (q.entries.map Entry.seq).Nodup) : q.contend e.seq = { q with
      entries := e :: (match e.body with
        | .notice (.attention slot) _ => rest.filter (fun b => !b.isAttention slot)
        | _ => rest),
      contended := some e.seq } :=
  congrArg (fun r : OutboundQueue => { r with contended := some e.seq }) (OutboundQueue.returned_head he hn)

theorem endsFlight_eq_false {r : Response} : r.endsFlight = false ↔
    r.taken = false ∨ r.owner ≠ .session ∨ r.status = .deferred := by
  cases ht : r.taken <;> simp [Response.endsFlight, ht]
  tauto

theorem State.transmissionEnd_response {r : Response} {wire : List Byte} (ht : s.link.tx = some ⟨.response r, wire⟩) :
    s.transmissionEnd = s.endTx.responseEnded r := by
  simp only [State.transmissionEnd, ht]

theorem State.transmissionEnd_entry {h : Addr} {n : Byte} {o : Bool} {wire : List Byte}
    (ht : s.link.tx = some ⟨.entry h n o, wire⟩) : s.transmissionEnd = s.endTx.entryEnded h o := by
  simp only [State.transmissionEnd, ht]

theorem State.contentionLoss_response {r : Response} {wire : List Byte} (ht : s.link.tx = some ⟨.response r, wire⟩) :
    s.contentionLoss = s.endTx.responseLost r := by
  simp only [State.contentionLoss, ht]

theorem State.contentionLoss_entry {h : Addr} {n : Byte} {o : Bool} {wire : List Byte}
    (ht : s.link.tx = some ⟨.entry h n o, wire⟩) : s.contentionLoss = s.endTx.entryLost o := by
  simp only [State.contentionLoss, ht]

/-- The end of a response on which no committed clear hangs (R97, R169). -/
theorem State.responseEnded_stays {r : Response} (hc : ¬ (r.clears = true ∧ s.panel.clearCommitted = true)) :
    s.responseEnded r = if r.endsFlight then s.mapSession r.host (fun x => { x with inFlight := false }) else s := by
  have hno : (r.clears && s.panel.clearCommitted) = false := Bool.eq_false_iff.2 fun h => hc (Bool.and_eq_true_iff.1 h)
  unfold State.responseEnded
  split
  · exact if_neg (Bool.eq_false_iff.1 hno)
  · exact if_neg (Bool.eq_false_iff.1 hno)

/-- The end of a response on which a committed clear hangs (R119). -/
theorem State.responseEnded_clears {r : Response} (hr : r.clears = true) (hc : s.panel.clearCommitted = true) :
    s.responseEnded r = s.linkClear := by
  have hyes : (r.clears && s.panel.clearCommitted) = true := by rw [hr, hc]; rfl
  unfold State.responseEnded
  split
  · exact if_pos hyes
  · exact if_pos hyes

/-- A response of an open session, or of none, that is lost to contention (R170). -/
theorem State.responseLost_open {r : Response} (ho : r.owner ≠ .closed) : s.responseLost r =
    if !r.taken && s.link.responses.any (fun q => decide (q.taken = false) && decide (q.host = r.host)) then s
    else { s with link := { s.link with responses := r :: s.link.responses } } := by
  unfold State.responseLost
  split
  next h => exact absurd h ho
  next => rfl
  next => rfl

theorem State.responseLost_closed {r : Response} (ho : r.owner = .closed) : s.responseLost r =
    if r.clears && s.panel.clearCommitted then s.linkClear else s := by
  simp only [State.responseLost, ho]

/-- Settles O35. -/
theorem transmissionsEnd : Obligations.TransmissionsEnd := by
  intro s
  refine ⟨fun sw => ⟨fun r wire ht hk ho hs hc => congrArg Host.Outcome.next ?_, fun r wire ht hk hc => congrArg Host.Outcome.next ?_,
    fun r wire ht hr hc => congrArg Host.Outcome.next ?_, fun h n wire a ht ha => congrArg Host.Outcome.next ?_,
    fun h n wire ht => congrArg Host.Outcome.next ?_, fun ht => congrArg Host.Outcome.next ?_⟩,
    fun r wire ht ho hk => congrArg Host.Outcome.next ?_, fun r wire ht ho hk hq => congrArg Host.Outcome.next ?_,
    fun r wire ht ho => ⟨fun hc => congrArg Host.Outcome.next ?_, fun hr hc => congrArg Host.Outcome.next ?_⟩,
    fun h n wire a x e rest ht ha hh hseq hx he hes hn => ?_, fun h n wire ht => congrArg Host.Outcome.next ?_,
    fun ht => congrArg Host.Outcome.next ?_⟩
  · have hflight : r.endsFlight = true := by simp [Response.endsFlight, hk, ho, hs]
    refine ((State.transmissionEnd_response (s := s.readSwitches sw) ht).trans (State.responseEnded_stays hc)).trans ?_
    exact if_pos hflight
  · refine ((State.transmissionEnd_response (s := s.readSwitches sw) ht).trans (State.responseEnded_stays ?_)).trans ?_
    · rw [hc]
      rintro ⟨h, -⟩
      cases h
    · exact if_neg (Bool.eq_false_iff.1 (endsFlight_eq_false.2 hk))
  · refine ((State.transmissionEnd_response (s := s.readSwitches sw) ht).trans (State.responseEnded_clears hr hc)).trans ?_
    exact State.linkClear_eq sw s
  · refine (State.transmissionEnd_entry (s := s.readSwitches sw) ht).trans ?_
    exact congrArg (fun b => { (s.readSwitches sw).endTx with delivery := { pointer := some h, attempt := b } })
      (congrArg (Option.map (Attempt.await s.now)) ha)
  · exact State.transmissionEnd_entry (s := s.readSwitches sw) ht
  · have ht' : (s.readSwitches sw).link.tx = none := ht
    simp only [State.transmissionEnd, ht']
    rfl
  · refine ((State.contentionLoss_response ht).trans (State.responseLost_open ho)).trans (if_neg ?_)
    simp only [Bool.and_eq_true, Bool.not_eq_true', List.any_eq_true, decide_eq_true_eq]
    rintro ⟨hnot, q, hq, hq'⟩
    rcases hk with hk | hk
    · rw [hk] at hnot; cases hnot
    · exact hk q hq hq'
  · refine ((State.contentionLoss_response ht).trans (State.responseLost_open ho)).trans (if_pos ?_)
    simp only [Bool.and_eq_true, Bool.not_eq_true', List.any_eq_true, decide_eq_true_eq]
    exact ⟨hk, hq⟩
  · refine ((State.contentionLoss_response ht).trans (State.responseLost_closed ho)).trans (if_neg ?_)
    exact fun h => hc (Bool.and_eq_true_iff.1 h)
  · refine ((State.contentionLoss_response ht).trans (State.responseLost_closed ho)).trans ((if_pos ?_).trans ?_)
    · exact Bool.and_eq_true_iff.2 ⟨hr, hc⟩
    · exact State.linkClear_eq s.panel.switches s
  · have hlost : s.contentionLoss = { s.endTx.mapQueue h (fun q => q.contend n) with
        delivery := { s.delivery with attempt := none } } := by
      rw [State.contentionLoss_entry ht, State.entryLost_attempt (s := s.endTx) ha, hh, hseq]
      rfl
    refine ⟨_, congrArg Host.Outcome.next hlost, rfl, ?_, ?_⟩
    · exact OthersSame.mapSession s.endTx h (g := fun x => { x with out := x.out.contend n }) fun _ => rfl
    · have hfound := State.mapSession_found (s := s.endTx) (g := fun x => { x with out := x.out.contend n }) (fun _ => rfl) hx
      refine hfound.trans (congrArg some ?_)
      subst hes
      exact congrArg (fun q : OutboundQueue => { x with out := q }) (OutboundQueue.contend_head he hn)
  · exact State.contentionLoss_entry ht
  · simp only [State.contentionLoss, ht]

/-- Settles O36. -/
theorem tackExpiryCounts : Obligations.TackExpiryCounts := by
  refine fun s => ⟨fun a d x e rest ha hd hx he hes hn => ?_, fun hno => congrArg Host.Outcome.next ?_⟩
  · obtain ⟨host, seq, tAck, deadline⟩ := a
    obtain rfl : deadline = some d := hd
    have hexec : s.tackExpiry = { (s.reach d).mapSession host (Session.tackExpired s.panel.config.attempts seq) with
        delivery := { s.delivery with attempt := none } } := by
      simp only [State.tackExpiry, ha]
    refine ⟨_, congrArg Host.Outcome.next hexec, rfl, ?_, ?_⟩
    · exact OthersSame.mapSession (s.reach d) host (g := Session.tackExpired s.panel.config.attempts seq) fun _ => rfl
    · have hfound := State.mapSession_found (s := s.reach d) (g := Session.tackExpired s.panel.config.attempts seq)
        (fun _ => rfl) hx
      refine hfound.trans (congrArg some ?_)
      obtain rfl : e.seq = seq := hes
      have hexpired : x.out.expired e.seq = { x.out with
          entries := e :: (match e.body with
            | .notice (.attention slot) _ => rest.filter (fun q => !q.isAttention slot)
            | _ => rest),
          attempts := x.out.attempts + 1 } :=
        congrArg (fun r : OutboundQueue => { r with attempts := r.attempts + 1 }) (OutboundQueue.returned_head he hn)
      exact congrArg (fun q : OutboundQueue => { x with
        out := q, delivery := if s.panel.config.attempts.toNat ≤ q.attempts then .stalled else x.delivery }) hexpired
  · have hshape (a : Option Attempt) (h : ∀ b, a = some b → b.deadline = none) :
        a = none ∨ ∃ host seq tAck, a = some ⟨host, seq, tAck, none⟩ := by
      rcases a with _ | ⟨host, seq, tAck, deadline⟩
      · exact .inl rfl
      · obtain rfl : deadline = none := h _ rfl
        exact .inr ⟨host, seq, tAck, rfl⟩
    unfold State.tackExpiry
    rcases hshape _ hno with h | ⟨host, seq, tAck, h⟩ <;> simp only [h]

/-! ### The start of a transmission -/

/-- The address that the round-robin considers after `i` others (R159). -/
def turnAddr (pointer : Option Addr) (i : Nat) : Addr := BitVec.ofNat 4 (((pointer.map BitVec.toNat).getD 0 + i) % 15 + 1)

theorem roundRobin_eq (pointer : Option Addr) : roundRobin pointer = (List.range 15).map (turnAddr pointer) := rfl

theorem turnAddr_toNat (pointer : Option Addr) (i : Nat) :
    (turnAddr pointer i).toNat = ((pointer.map BitVec.toNat).getD 0 + i) % 15 + 1 := by
  rw [turnAddr, BitVec.toNat_ofNat]
  omega

theorem turnAddr_ne_zero (pointer : Option Addr) (i : Nat) : turnAddr pointer i ≠ 0 := by
  intro h
  have := congrArg BitVec.toNat h
  rw [turnAddr_toNat] at this
  simp at this

theorem pointer_le (pointer : Option Addr) : (pointer.map BitVec.toNat).getD 0 ≤ 15 := by
  cases pointer with
  | none => exact Nat.zero_le _
  | some a =>
    have := a.isLt
    simp only [Option.map_some, Option.getD_some]
    omega

theorem turnsBefore_turnAddr {pointer : Option Addr} {i : Nat} (hi : i < 15) : turnsBefore pointer (turnAddr pointer i) = i := by
  have := pointer_le pointer
  rw [turnsBefore, turnAddr_toNat]
  omega

theorem turnAddr_turnsBefore {pointer : Option Addr} {h : Addr} (h0 : h ≠ 0) : turnAddr pointer (turnsBefore pointer h) = h := by
  have hp := pointer_le pointer
  have hlt := h.isLt
  have hpos : h.toNat ≠ 0 := fun e => h0 (BitVec.eq_of_toNat_eq e)
  refine BitVec.eq_of_toNat_eq ?_
  rw [turnAddr_toNat, turnsBefore]
  omega

theorem turnsBefore_lt (pointer : Option Addr) (h : Addr) : turnsBefore pointer h < 15 := Nat.mod_lt _ (by omega)

/-- A session with something to send is ready (R159). -/
theorem hasTurn_iff {h : Addr} : HasTurn s h ↔ ∃ x, (s.session? h).filter Session.ready = some x := by
  simp only [HasTurn, Option.filter_eq_some_iff, Session.ready, Bool.and_eq_true, decide_eq_true_eq, Bool.not_eq_true',
    List.isEmpty_eq_false_iff]

/-- With a search along a range, the first success is at the least index. -/
theorem findSome?_range_first {α : Type} {g : Nat → Option α} {n i : Nat} {a : α} (hi : i < n) (ha : g i = some a)
    (hbefore : ∀ j < i, g j = none) : (List.range n).findSome? g = some a := by
  obtain ⟨m, rfl⟩ : ∃ m, n = i + (m + 1) := ⟨n - i - 1, by omega⟩
  rw [List.range_add, List.findSome?_append, List.findSome?_eq_none_iff.2 fun j hj => hbefore j (List.mem_range.1 hj),
    List.range_succ_eq_map]
  simp [ha]

/-- The round-robin's choice (R159). -/
theorem State.nextSession_first {h : Addr} (h0 : h ≠ 0) (hx : s.session? h = some x) (hready : x.ready = true)
    (hfirst : ∀ k, k ≠ 0 → HasTurn s k → turnsBefore s.delivery.pointer h ≤ turnsBefore s.delivery.pointer k) :
    s.nextSession = some x := by
  rw [State.nextSession, roundRobin_eq, List.findSome?_map]
  refine findSome?_range_first (turnsBefore_lt s.delivery.pointer h) ?_ fun j hj => ?_
  · simp only [Function.comp, turnAddr_turnsBefore h0, hx, Option.filter_some, hready, if_true]
  · by_contra hsome
    have hturn : HasTurn s (turnAddr s.delivery.pointer j) := hasTurn_iff.2 (Option.ne_none_iff_exists'.1 hsome)
    have hle := hfirst _ (turnAddr_ne_zero _ _) hturn
    have hlt := turnsBefore_lt s.delivery.pointer h
    rw [turnsBefore_turnAddr (by omega)] at hle
    omega

theorem State.nextSession_none (hno : ∀ h, h ≠ 0 → ¬ HasTurn s h) : s.nextSession = none := by
  rw [State.nextSession, roundRobin_eq, List.findSome?_map]
  refine List.findSome?_eq_none_iff.2 fun j _ => ?_
  by_contra hsome
  exact hno _ (turnAddr_ne_zero s.delivery.pointer j) (hasTurn_iff.2 (Option.ne_none_iff_exists'.1 hsome))

theorem Entry.sent_seq (m : Marker) (e : Entry) : (e.sent m).1.seq = e.seq := by
  unfold Entry.sent
  split <;> rfl

/-- The head's transmission starts (R158, R159). -/
theorem OutboundQueue.started_cons {q : OutboundQueue} {e : Entry} {rest : List Entry} (he : q.entries = e :: rest) :
    q.started = { q with entries := (e.sent q.marker).1 :: rest, marker := (e.sent q.marker).2, contended := none } := by
  obtain ⟨entries, counter, marker, attempts, contended⟩ := q
  subst he
  obtain ⟨seq, _ | ⟨n, _ | _⟩⟩ := e <;> cases marker <;> rfl

theorem exec_transmitStart_ready (hready : s.link.tx = none ∧ s.link.resetLine = .released ∧ s.link.receive = .idle ∧
    s.panel.nodeAddress ≠ 0) : exec .transmitStart s = .next s.chooseFrame :=
  congrArg Host.Outcome.next (if_pos (State.maySend_iff.2 hready))

theorem exec_transmitStart_not (hnot : ¬ (s.link.tx = none ∧ s.link.resetLine = .released ∧ s.link.receive = .idle ∧
    s.panel.nodeAddress ≠ 0)) : exec .transmitStart s = .next s :=
  congrArg Host.Outcome.next (if_neg fun h => hnot (State.maySend_iff.1 h))

theorem flagByte_eq (b : Option Bool) : flagByte (decide (b = some true)) = if b = some true then 0x01 else 0x00 := by
  rcases b with _ | _ | _ <;> rfl

/-- Settles O34. -/
theorem transmitStartChooses : Obligations.TransmitStartChooses := by
  refine fun s => ⟨fun r rest hready hr => ?_, fun h x e rest hready hr ha h0 hx hdel he hfirst => ?_,
    fun node h seq => ⟨fun _ _ _ _ _ => rfl, fun _ _ _ _ => rfl, fun _ => ⟨rfl, rfl⟩, fun slot lost => ?_,
      fun kind r hd token lost => ?_⟩, fun hr hno => ?_, fun hnot => exec_transmitStart_not hnot⟩
  · rw [exec_transmitStart_ready hready, State.chooseFrame]
    simp only [hr]
    rfl
  · have hnext : s.nextSession = some x :=
      State.nextSession_first h0 hx (by simp [Session.ready, hdel, he]) hfirst
    obtain rfl := s.session?_host hx
    have hstart := OutboundQueue.started_cons he
    have hentries : x.out.started.entries = (e.sent x.out.marker).1 :: rest := congrArg OutboundQueue.entries hstart
    have hchoose : s.chooseFrame = s.startEntry x.host (e.sent x.out.marker).1 := by
      simp only [State.chooseFrame, hr, ha, hnext, hentries]
    refine ⟨_, (exec_transmitStart_ready hready).trans (congrArg Host.Outcome.next hchoose), ?_, ?_, ?_⟩
    · rw [State.startEntry, Entry.sent_seq]
      rfl
    · exact OthersSame.mapSession s x.host (g := fun y => { y with out := y.out.started }) fun _ => rfl
    · have hfound := State.mapSession_found (g := fun y => { y with out := y.out.started }) (fun _ => rfl) hx
      exact hfound.trans (congrArg (fun q : OutboundQueue => some { x with out := q }) hstart)
  · rw [← flagByte_eq]
    rfl
  · obtain ⟨slot, ch⟩ := r
    rw [← flagByte_eq]
    cases kind <;> cases ch <;> rfl
  · by_cases hready : s.link.tx = none ∧ s.link.resetLine = .released ∧ s.link.receive = .idle ∧ s.panel.nodeAddress ≠ 0
    · rw [exec_transmitStart_ready hready, State.chooseFrame]
      cases ha : s.delivery.attempt with
      | some a => simp only [hr]
      | none => simp only [hr, State.nextSession_none (hno.resolve_left (not_not.2 ha))]
    · exact exec_transmitStart_not hready

end Sys2Proof.Machine
end

section
/-! PROOFS. What joins an Outbound Queue (R146, R156 to R158, R161), and what UNBOOK removes from it (R149). -/

namespace Sys2Proof.Machine

variable {q : OutboundQueue}

/-! ### Numbers -/

/-- The search for a number passes the numbers that entries carry, one after the other. -/
theorem freeNumber_walked (es : List Entry) (fuel : Nat) (n : Byte) : ∃ k ≤ fuel,
    freeNumber es fuel n = n + BitVec.ofNat 8 k ∧ ∀ j < k, ∃ e ∈ es, e.seq = n + BitVec.ofNat 8 j := by
  induction fuel generalizing n with
  | zero => exact ⟨0, le_rfl, (BitVec.add_zero n).symm, fun j hj => absurd hj (Nat.not_lt_zero j)⟩
  | succ fuel ih =>
    unfold freeNumber
    split
    next hany =>
      obtain ⟨e, he, hen⟩ := List.any_eq_true.1 hany
      obtain ⟨k, hk, hfree, hcarried⟩ := ih (n + 1)
      have hshift (j : Nat) : n + 1 + BitVec.ofNat 8 j = n + BitVec.ofNat 8 (j + 1) := by
        rw [BitVec.add_assoc, Nat.add_comm j 1, BitVec.ofNat_add]
        rfl
      refine ⟨k + 1, Nat.succ_le_succ hk, hfree.trans (hshift k), fun j hj => ?_⟩
      cases j with
      | zero => exact ⟨e, he, (of_decide_eq_true hen).trans (BitVec.add_zero n).symm⟩
      | succ j =>
        obtain ⟨e', he', hs⟩ := hcarried j (Nat.lt_of_succ_lt_succ hj)
        exact ⟨e', he', hs.trans (hshift j)⟩
    next => exact ⟨0, Nat.zero_le _, (BitVec.add_zero n).symm, fun j hj => absurd hj (Nat.not_lt_zero j)⟩

theorem freeNumber_unused {es : List Entry} {n : Byte} (h : ∀ e ∈ es, e.seq ≠ n) (fuel : Nat) : freeNumber es fuel n = n := by
  have hany : es.any (fun e => decide (e.seq = n)) = false :=
    List.any_eq_false.2 fun e he hs => h e he (of_decide_eq_true hs)
  cases fuel with
  | zero => rfl
  | succ fuel => simp only [freeNumber, hany, Bool.false_eq_true, if_false]

/-! ### Joining -/

/-- A join at the end changes the head of an empty queue alone. -/
theorem headNumber_append_eq {es : List Entry} {e : Entry} : headNumber (es ++ [e]) = headNumber es ↔ es ≠ [] := by
  cases es <;> simp [headNumber]

/-- An entry that joins (R156, R157, R161). -/
theorem OutboundQueue.push_fields (q : OutboundQueue) (b : EntryBody) :
    (q.push b).entries = q.entries ++ [{ seq := q.nextNumber, body := b }] ∧ (q.push b).counter = q.nextNumber + 1 ∧
    (q.push b).marker = q.marker ∧ ((q.push b).attempts = if q.entries = [] then 0 else q.attempts) ∧
    (q.push b).contended = if q.entries = [] then none else q.contended := by
  refine ⟨rfl, rfl, rfl, ?_, ?_⟩
  · exact (if_congr headNumber_append_eq rfl rfl).trans (ite_not _ _ _)
  · exact (if_congr headNumber_append_eq rfl rfl).trans (ite_not _ _ _)

theorem any_undelivered {fl : Option Byte} {f : Entry → Bool} {es : List Entry} :
    es.any (fun e => e.undelivered fl && f e) = true ↔ ∃ e ∈ es, fl ≠ some e.seq ∧ f e = true := by
  simp [Entry.undelivered]

/-- A retirement notice takes the place of an undelivered RECALL, or joins (R157). -/
theorem OutboundQueue.hand_retirement (fl : Option Byte) {k : LeaseNotice} (hk : k ≠ .recall) (r : Resource) (h : Handle)
    (t : Token) : q.hand fl (.lease k r h t) =
      if q.entries.any (fun e => e.undelivered fl && e.isRecall h t) then
        q.replaceRecall (fun e => e.undelivered fl && e.isRecall h t) (.lease k r h t)
      else q.joinNotice (.lease k r h t) := by
  match k, hk with
  | .recall, hk => exact absurd rfl hk
  | .expired, _ => rfl
  | .revoked, _ => rfl
  | .vacated, _ => rfl

/-- A notice with nothing to be coalesced into, and no RECALL to take the place of, joins (R157). -/
theorem OutboundQueue.hand_joins {fl : Option Byte} {n : Notice}
    (hatt : ∀ slot, n = .attention slot → ∀ e ∈ q.entries, ¬ (fl ≠ some e.seq ∧ e.isAttention slot = true))
    (hrec : ∀ k r h t, n = .lease k r h t → k ≠ .recall →
      ∀ e ∈ q.entries, ¬ (fl ≠ some e.seq ∧ e.isRecall h t = true)) : q.hand fl n = q.joinNotice n := by
  cases n with
  | attention slot =>
    refine if_neg fun h => ?_
    obtain ⟨e, he, hu⟩ := any_undelivered.1 h
    exact hatt slot rfl e he hu
  | lease k r h t =>
    by_cases hk : k = .recall
    · subst hk
      rfl
    · rw [OutboundQueue.hand_retirement fl hk]
      refine if_neg fun hany => ?_
      obtain ⟨e, he, hu⟩ := any_undelivered.1 hany
      exact hrec k r h t rfl hk e he hu

theorem replaceFirst_split {α : Type} {p : α → Bool} {new a : α} {front back : List α} (hf : ∀ b ∈ front, p b = false)
    (ha : p a = true) : replaceFirst p new (front ++ a :: back) = front ++ new :: back := by
  induction front with
  | nil => exact if_pos ha
  | cons b front ih =>
    have hb : ¬ p b = true := by simp [hf b List.mem_cons_self]
    exact (if_neg hb).trans (congrArg (b :: ·) (ih fun c hc => hf c (List.mem_cons_of_mem _ hc)))

theorem find?_split {α : Type} {p : α → Bool} {a : α} {front back : List α} (hf : ∀ b ∈ front, p b = false) (ha : p a = true) :
    (front ++ a :: back).find? p = some a := by
  rw [List.find?_append, List.find?_eq_none.2 fun b hb => by simp [hf b hb], List.find?_cons_of_pos ha]
  rfl

theorem Marker.removed_eq (lost : Option Bool) (m : Marker) :
    Marker.removed lost m = if lost = some true ∧ m = .reported then .set else m := by
  rcases lost with _ | _ | _ <;> cases m <;> rfl

/-- Settles O38. -/
theorem noticesJoin : Obligations.NoticesJoin := by
  refine fun q fl => ⟨fun hlen e he hs => ?_, fun hfree => freeNumber_unused hfree _, freeNumber_walked _ _ _,
    fun tag o => q.push_fields _, fun slot hex => if_pos (any_undelivered.2 hex), fun n hatt hrec => ?_,
    fun k r h t front e back hk he hfl hrec hfront => ?_⟩
  · exact q.nextNumber_free hlen (hs ▸ List.mem_map_of_mem he)
  · rw [OutboundQueue.hand_joins hatt hrec, OutboundQueue.joinNotice]
    refine ⟨fun hroom => ?_, fun hfull => ?_⟩
    · rw [if_pos (show q.notices < Config.maxNotices from hroom)]
      exact q.push_fields _
    · rw [if_neg (Nat.not_lt.2 (show Config.maxNotices ≤ q.notices from hfull)), OutboundQueue.mark]
      cases q.marker <;> rfl
  · have hany : q.entries.any (fun e => e.undelivered fl && e.isRecall h t) = true :=
      any_undelivered.2 ⟨e, he ▸ by simp, hfl, hrec⟩
    have hother : ∀ b ∈ front, (b.undelivered fl && b.isRecall h t) = false := by
      intro b hb
      have := hfront b hb
      simpa [Entry.undelivered] using this
    have hself : (e.undelivered fl && e.isRecall h t) = true := by simp [Entry.undelivered, hfl, hrec]
    have hentries : replaceFirst (fun e => e.undelivered fl && e.isRecall h t)
        { seq := q.nextNumber, body := .notice (.lease k r h t) none } q.entries =
        front ++ { seq := q.nextNumber, body := .notice (.lease k r h t) none } :: back := by
      rw [he]
      exact replaceFirst_split hother hself
    have hfind : q.entries.find? (fun e => e.undelivered fl && e.isRecall h t) = some e := by
      rw [he]
      exact find?_split hother hself
    rw [OutboundQueue.hand_retirement fl hk, if_pos hany]
    refine ⟨hentries, ?_, rfl, fun hlen => ?_⟩
    · exact (congrArg (fun l : Option Entry => Marker.removed (l.bind Entry.lost) q.marker) hfind).trans
        (Marker.removed_eq e.lost q.marker)
    · have hhead : headNumber (front ++ { seq := q.nextNumber, body := .notice (.lease k r h t) none } :: back) =
          headNumber q.entries ↔ ¬ front = [] := by
        have hfree := q.nextNumber_free hlen
        rw [he] at hfree ⊢
        cases front with
        | nil =>
          refine iff_of_false (fun hsame => hfree ?_) (fun h => h rfl)
          have hseq : q.nextNumber = e.seq := Option.some.inj hsame
          exact hseq ▸ List.mem_map_of_mem List.mem_cons_self
        | cons b front => simp [headNumber]
      refine ⟨?_, ?_⟩
      · simp only [OutboundQueue.replaceRecall, OutboundQueue.mark, OutboundQueue.withEntries, hentries]
        exact (if_congr hhead rfl rfl).trans (ite_not _ _ _)
      · simp only [OutboundQueue.replaceRecall, OutboundQueue.mark, OutboundQueue.withEntries, hentries]
        exact (if_congr hhead rfl rfl).trans (ite_not _ _ _)

end Sys2Proof.Machine
end

section
/-! PROOFS. The Booking Unit (R143, R144, R148, R149). -/

namespace Sys2Proof.Machine

variable {s t u v : State} {f : Frame} {x : Session} {q : OutboundQueue}

/-! ### UNBOOK and the queue -/

/-- With at most one element that passes, any that passes is the one found. -/
theorem find?_of_countP_le_one {α : Type} {p : α → Bool} {as : List α} {a : α} (hc : as.countP p ≤ 1) (ha : a ∈ as)
    (hp : p a = true) : as.find? p = some a := by
  rw [List.countP_eq_length_filter] at hc
  have hmem : a ∈ as.filter p := List.mem_filter.2 ⟨ha, hp⟩
  refine find?_unique ha hp fun b hb hpb => ?_
  have hmem' : b ∈ as.filter p := List.mem_filter.2 ⟨hb, hpb⟩
  match as.filter p, hc, hmem, hmem' with
  | [c], _, ha', hb' => exact (List.mem_singleton.1 hb').trans (List.mem_singleton.1 ha').symm

/-- What a removal leaves of the attempt count and the mark of a lost transmission. -/
theorem headNumber_filter_kept {p : Entry → Bool} {es : List Entry} (h : ∀ e, es.head? = some e → p e = true) :
    headNumber (es.filter p) = headNumber es := by
  cases es with
  | nil => rfl
  | cons e es =>
    rw [List.filter_cons_of_pos (h e rfl)]
    rfl

theorem headNumber_filter_gone {p : Entry → Bool} {es : List Entry} {e : Entry} (he : es.head? = some e) (hp : p e = false)
    (hn : (es.map Entry.seq).Nodup) : headNumber (es.filter p) ≠ headNumber es := by
  cases es with
  | nil => cases he
  | cons b es =>
    obtain rfl : b = e := Option.some.inj he
    rw [List.filter_cons_of_neg (by simp [hp])]
    intro hsame
    obtain ⟨c, cs, hcs, hseq⟩ := headNumber_eq_some.1 (hsame.trans (headNumber_cons b es))
    have hc : c ∈ es := List.mem_of_mem_filter (hcs ▸ List.mem_cons_self : c ∈ es.filter p)
    exact seq_ne_of_nodup hn c hc hseq

theorem OutboundQueue.unbook_removed (q : OutboundQueue) (fl : Option Byte) (slot : SlotNo) :
    (q.unbook fl slot).marker =
      if q.attentionLost fl slot = some true ∧ q.marker = .reported then .set else q.marker :=
  (q.unbook_marker fl slot).trans (Marker.removed_eq _ _)

/-! ### The slot of a request -/

theorem bookingSlot_error {b : Byte} (h : 16 ≤ b.toNat) : bookingSlot b = .error (.fault .badResource (some 0)) := by
  simp only [bookingSlot, slotOf, dif_neg (Nat.not_lt.2 h)]

theorem bookingSlot_ok {b : Byte} {slot : SlotNo} (h : b.toNat = slot.val) : bookingSlot b = .ok slot := by
  have hlt : b.toNat < 16 := h ▸ slot.isLt
  have hslot : (⟨b.toNat, hlt⟩ : SlotNo) = slot := Fin.ext h
  simp only [bookingSlot, slotOf, dif_pos hlt, hslot]

theorem parseBook_payload (b : Byte) (mode : BookingMode) :
    parseBook [b, if mode = .standing then 0x01 else 0x00] = .ok (b, mode) := by
  cases mode <;> rfl

/-! ### One booking fires -/

/-- The only booking that is chosen and ARMED fires (R144): its session is handed an ATTENTION. -/
theorem State.fire_one {p : Booking → Bool} {b : Booking}
    (h : s.bookings.filter (fun b => p b && decide (b.state = .armed)) = [b]) :
    s.fire p = ({ s with bookings := fireBookings p s.bookings }).handNotice b.session (.attention b.slot) := by
  rw [State.fire, h]
  rfl

theorem fireBookings_spares {p : Booking → Bool} {bs : List Booking} (h : ∀ b ∈ bs, p b = false) : fireBookings p bs = bs := by
  refine (List.filterMap_congr (g := some) fun b hb => ?_).trans List.filterMap_some
  simp [h b hb]

/-- A booking that is put on a raised slot fires at once (R15, R143). -/
theorem State.fire_putBooking (h : Addr) (slot : SlotNo) (mode : BookingMode) (s : State) :
    (s.putBooking h slot mode).fire (Booking.isOf h slot) =
      State.handNotice h (.attention slot) { s with bookings := s.bookings.filter (fun b => !Booking.isOf h slot b) ++
        (if mode = BookingMode.standing then [⟨h, slot, .standing, .fired⟩] else []) } := by
  have hothers : ∀ b ∈ s.bookings.filter (fun b => !Booking.isOf h slot b), Booking.isOf h slot b = false :=
    fun b hb => by simpa using (List.mem_filter.1 hb).2
  have hown (m : BookingMode) (st : BookingState) : Booking.isOf h slot ⟨h, slot, m, st⟩ = true := by simp [Booking.isOf]
  have hbookings : (s.putBooking h slot mode).bookings =
      s.bookings.filter (fun b => !Booking.isOf h slot b) ++ [⟨h, slot, mode, .armed⟩] := rfl
  have hchosen : (s.putBooking h slot mode).bookings.filter
      (fun b => Booking.isOf h slot b && decide (b.state = .armed)) = [⟨h, slot, mode, .armed⟩] := by
    rw [hbookings, List.filter_append, List.filter_eq_nil_iff.2 fun b hb => by simp [hothers b hb]]
    simp [hown]
  have hfired : fireBookings (Booking.isOf h slot) (s.putBooking h slot mode).bookings =
      s.bookings.filter (fun b => !Booking.isOf h slot b) ++
        (if mode = BookingMode.standing then [⟨h, slot, .standing, .fired⟩] else []) := by
    rw [hbookings, fireBookings, List.filterMap_append]
    refine congrArg₂ (· ++ ·) (fireBookings_spares hothers) ?_
    cases mode <;> simp [hown]
  rw [State.fire_one hchosen, hfired]
  rfl

/-- A booking request that fires is answered (R143, R148). -/
theorem State.taking_attention_answer {kind : Byte} (hn : NewRequest s kind f x) (bs : List Booking) (slot : SlotNo) :
    State.answer (frameHost f) .done []
      (State.handNotice (frameHost f) (.attention slot) { s.taking kind f with bookings := bs }) =
    { s.answeredRequestWith (fun y => { y with out := y.out.hand (s.flying (frameHost f)) (.attention slot) })
        kind f .done [] with bookings := bs } :=
  State.answerWith_new (u := State.handNotice (frameHost f) (.attention slot) { s.taking kind f with bookings := bs }) hn
    (Session.aside_out (fun q => q.hand (s.flying (frameHost f)) (.attention slot))) rfl rfl .done [] false

/-- Settles O39. -/
theorem bookArms : Obligations.BookArms := by
  intro s f x b mode hn hf
  have hexec : exec (.book f) s = .next ((s.taking Kind.book f).parsed (frameHost f) (bookingSlot b) (fun slot s =>
      ((s.putBooking (frameHost f) slot mode).fireIfRaised (frameHost f) slot).answer (frameHost f) .done [])) := by
    rw [exec_book_new hn, hf, State.takeBook, parseBook_payload]
    rfl
  refine ⟨fun hb => ?_, fun slot hb => ?_⟩
  · rw [hexec, bookingSlot_error hb]
    exact congrArg Host.Outcome.next (s.taking_deny hn (.fault .badResource (some 0)))
  · rw [bookingSlot_ok hb] at hexec
    refine ⟨fun hr => hexec.trans (congrArg Host.Outcome.next ?_), fun hr => hexec.trans (congrArg Host.Outcome.next ?_)⟩
    · have hlow : ((s.taking Kind.book f).putBooking (frameHost f) slot mode).fireIfRaised (frameHost f) slot =
          (s.taking Kind.book f).putBooking (frameHost f) slot mode := if_neg (Bool.eq_false_iff.1 hr)
      dsimp only [State.parsed]
      rw [hlow]
      exact State.answerWith_new_same (u := (s.taking Kind.book f).putBooking (frameHost f) slot mode) hn rfl rfl .done [] false
    · have hhigh : ((s.taking Kind.book f).putBooking (frameHost f) slot mode).fireIfRaised (frameHost f) slot = _ :=
        (if_pos hr).trans (State.fire_putBooking (frameHost f) slot mode (s.taking Kind.book f))
      dsimp only [State.parsed]
      rw [hhigh]
      exact State.taking_attention_answer hn _ slot

/-! ### UNBOOK and REARM -/

theorem requestOf_unbook {c : Instr} (h : requestOf c = some (Kind.unbook, f)) : c = .unbook f := by
  cases c with
  | unbook g => cases h; rfl
  | unknownRequestKind k g =>
    rw [requestOf] at h
    split_ifs at h with hk
    cases h
    exact absurd rfl hk
  | _ => cases h

theorem requestOf_rearm {c : Instr} (h : requestOf c = some (Kind.rearm, f)) : c = .rearm f := by
  cases c with
  | rearm g => cases h; rfl
  | unknownRequestKind k g =>
    rw [requestOf] at h
    split_ifs at h with hk
    cases h
    exact absurd rfl hk
  | _ => cases h

theorem exec_unbook_slot {b : Byte} (hn : NewRequest s Kind.unbook f x) (hf : f.payload = [b]) :
    exec (.unbook f) s = .next ((s.taking Kind.unbook f).parsed (frameHost f) (bookingSlot b) (fun slot s =>
      (s.dropBooking (frameHost f) slot).answer (frameHost f) .done [])) := by
  rw [exec_unbook_new hn, hf]
  rfl

theorem exec_rearm_slot {b : Byte} (hn : NewRequest s Kind.rearm f x) (hf : f.payload = [b]) :
    exec (.rearm f) s = .next ((s.taking Kind.rearm f).parsed (frameHost f) (bookingSlot b) (fun slot s =>
      match s.bookings.find? (Booking.isOf (frameHost f) slot) with
      | none => s.answer (frameHost f) .stale []
      | some b =>
        match b.state with
        | .armed => s.answer (frameHost f) .done []
        | .fired => ((s.armBooking (frameHost f) slot).fireIfRaised (frameHost f) slot).answer (frameHost f) .done [])) := by
  rw [exec_rearm_new hn, hf]
  rfl

theorem Booking.isOf_iff {h : Addr} {slot : SlotNo} {b : Booking} : b.isOf h slot = true ↔ b.session = h ∧ b.slot = slot := by
  simp [Booking.isOf]

/-- A session has one booking on a slot (R142). -/
theorem BookingsDistinct.eq_of_isOf (hd : BookingsDistinct s) {h : Addr} {slot : SlotNo} {j k : Booking} (hj : j ∈ s.bookings)
    (hk : k ∈ s.bookings) (hjo : j.isOf h slot = true) (hko : k.isOf h slot = true) : j = k := by
  obtain ⟨h1, h2⟩ := Booking.isOf_iff.1 hjo
  obtain ⟨h3, h4⟩ := Booking.isOf_iff.1 hko
  exact eq_of_nodup_map hd hj hk (Prod.ext (h1.trans h3.symm) (h2.trans h4.symm))

theorem BookingsDistinct.filter_isOf (hd : BookingsDistinct s) {h : Addr} {slot : SlotNo} {k : Booking}
    (hk : k ∈ s.bookings) (hko : k.isOf h slot = true) : s.bookings.filter (Booking.isOf h slot) = [k] := by
  have hn : (s.bookings.filter (Booking.isOf h slot)).Nodup := List.Nodup.filter _ (List.Nodup.of_map _ hd)
  have hall : ∀ j ∈ s.bookings.filter (Booking.isOf h slot), j = k := fun j hj =>
    hd.eq_of_isOf (List.mem_of_mem_filter hj) hk (List.mem_filter.1 hj).2 hko
  have hmem : k ∈ s.bookings.filter (Booking.isOf h slot) := List.mem_filter.2 ⟨hk, hko⟩
  match s.bookings.filter (Booking.isOf h slot), hn, hall, hmem with
  | [j], _, hall, _ => rw [hall j List.mem_cons_self]
  | i :: j :: _, hn, hall, _ =>
    have hij : i = j := (hall i List.mem_cons_self).trans (hall j (by simp)).symm
    simp [hij] at hn

/-- A FIRED STANDING booking that is armed on a raised slot fires again, and the table is as it was (R15, R148). -/
theorem State.fire_armBooking (hd : BookingsDistinct s) {h : Addr} {slot : SlotNo} {k : Booking} (hk : k ∈ s.bookings)
    (hko : k.isOf h slot = true) (hfired : k.state = .fired) (hm : k.mode = .standing) :
    (s.armBooking h slot).fire (Booking.isOf h slot) = s.handNotice h (.attention slot) := by
  obtain ⟨hks, hkl⟩ := Booking.isOf_iff.1 hko
  have harmed : (s.armBooking h slot).bookings.filter (fun b => Booking.isOf h slot b && decide (b.state = .armed)) =
      [{ k with state := .armed }] := by
    have hsame : s.bookings.filter ((fun b => Booking.isOf h slot b && decide (b.state = .armed)) ∘
        (fun b => if b.isOf h slot then { b with state := .armed } else b)) = s.bookings.filter (Booking.isOf h slot) := by
      refine List.filter_congr fun b _ => ?_
      by_cases hb : b.isOf h slot = true
      · have hb' : Booking.isOf h slot { b with state := .armed } = true := hb
        simp [hb, hb']
      · simp [hb]
    rw [State.armBooking, List.filter_map, hsame, hd.filter_isOf hk hko]
    exact congrArg (fun b => [b]) (if_pos hko)
  have hback : fireBookings (Booking.isOf h slot) (s.armBooking h slot).bookings = s.bookings := by
    rw [State.armBooking, fireBookings, List.filterMap_map]
    refine (List.filterMap_congr (g := some) fun b hb => ?_).trans List.filterMap_some
    by_cases hbo : b.isOf h slot = true
    · obtain rfl := hd.eq_of_isOf hb hk hbo hko
      obtain ⟨session, sl, mode, st⟩ := b
      subst hfired hm
      have hbo' : Booking.isOf h slot ⟨session, sl, .standing, .armed⟩ = true := hbo
      simp [hbo, hbo']
    · simp [hbo]
  rw [State.fire_one harmed, hback, ← hks, ← hkl]
  rfl

/-- Settles O40. -/
theorem unbookAndRearm : Obligations.UnbookAndRearm := by
  refine ⟨fun s c f x kind b hc hk hn hf hb => ?_, fun s f x b slot hn hf hb => ?_,
    fun q fl slot => ⟨rfl, rfl, fun hno => ?_, fun hone hex => ?_, fun hhead => ?_, fun e he hg hnd => ?_⟩,
    fun s f x b slot hn hf hb hd => ⟨fun hno => ?_, fun k hk hh hs => ⟨fun ha => ?_, fun hfi hr => ?_, fun hfi hm hr => ?_⟩⟩⟩
  · have hdeny : (Host.Outcome.next ((s.taking kind f).deny (frameHost f) (.fault .badResource (some 0))) :
        Host.Outcome State Fault Refusal) = _ := congrArg Host.Outcome.next (s.taking_deny hn (.fault .badResource (some 0)))
    rcases hk with rfl | rfl
    · rw [requestOf_unbook hc, exec_unbook_slot hn hf, bookingSlot_error hb]
      exact hdeny
    · rw [requestOf_rearm hc, exec_rearm_slot hn hf, bookingSlot_error hb]
      exact hdeny
  · rw [exec_unbook_slot hn hf, bookingSlot_ok hb]
    exact congrArg Host.Outcome.next (State.answerWith_new
      (u := (s.taking Kind.unbook f).dropBooking (frameHost f) slot) hn
      (Session.aside_out (fun q => q.unbook (s.flying (frameHost f)) slot)) rfl rfl .done [] false)
  · rw [OutboundQueue.unbook_removed]
    refine if_neg fun h => ?_
    obtain ⟨hlost, -⟩ := h
    obtain ⟨e, hfind, he⟩ := Option.bind_eq_some_iff.1 hlost
    have hg := List.find?_some (p := fun e : Entry => e.undelivered fl && e.isAttention slot) hfind
    exact hno e (List.mem_of_find?_eq_some hfind) hg he
  · obtain ⟨e, he, hg, hlost⟩ := hex
    have hattn : q.attentionLost fl slot = some true :=
      (congrArg (Option.bind · Entry.lost) (find?_of_countP_le_one hone he hg)).trans hlost
    rw [OutboundQueue.unbook_removed]
    exact if_congr (by simp [hattn]) rfl rfl
  · have hsame := headNumber_filter_kept (es := q.entries)
      (p := fun e => !(e.undelivered fl && e.isAttention slot)) fun e he => by
        rw [Bool.not_eq_true']
        exact hhead e he
    exact ⟨if_pos hsame, if_pos hsame⟩
  · have hne := headNumber_filter_gone (es := q.entries)
      (p := fun e => !(e.undelivered fl && e.isAttention slot)) he (by rw [Bool.not_eq_false']; exact hg) hnd
    exact ⟨if_neg hne, if_neg hne⟩
  all_goals
    rw [exec_rearm_slot hn hf, bookingSlot_ok hb]
    refine congrArg Host.Outcome.next ?_
    dsimp only [State.parsed]
  · have hfind : (s.taking Kind.rearm f).bookings.find? (Booking.isOf (frameHost f) slot) = none :=
      List.find?_eq_none.2 fun k hk => by rw [Booking.isOf_iff]; exact hno k hk
    rw [hfind]
    exact s.taking_answer hn .stale []
  all_goals
    have hko : k.isOf (frameHost f) slot = true := Booking.isOf_iff.2 ⟨hh, hs⟩
    have hfind : (s.taking Kind.rearm f).bookings.find? (Booking.isOf (frameHost f) slot) = some k :=
      find?_unique hk hko fun j hj hjo => hd.eq_of_isOf hj hk hjo hko
    rw [hfind]
  · simp only [ha]
    exact s.taking_answer hn .done []
  · have hlow : ((s.taking Kind.rearm f).armBooking (frameHost f) slot).fireIfRaised (frameHost f) slot =
        (s.taking Kind.rearm f).armBooking (frameHost f) slot := if_neg (Bool.eq_false_iff.1 hr)
    simp only [hfi, hlow]
    refine (State.answerWith_new_same (u := (s.taking Kind.rearm f).armBooking (frameHost f) slot) hn rfl rfl .done []
      false).trans ?_
    refine congrArg (fun bs => { s.answeredRequest Kind.rearm f .done [] with bookings := bs }) ?_
    exact List.map_congr_left fun j _ => if_congr Booking.isOf_iff rfl rfl
  · have hhigh : ((s.taking Kind.rearm f).armBooking (frameHost f) slot).fireIfRaised (frameHost f) slot = _ :=
      (if_pos hr).trans (State.fire_armBooking (s := s.taking Kind.rearm f) hd hk hko hfi hm)
    simp only [hfi, hhigh]
    exact State.taking_attention_answer hn s.bookings slot

end Sys2Proof.Machine
end

section
/-! PROOFS. The arbiter and the arrival of an ACCESS (R126 to R133), and attention rises (R14, R144, R145). -/

namespace Sys2Proof.Machine

variable {s t u v : State} {f : Frame} {x : Session}

/-! ### The start check -/

theorem AccessEntry.lease?_eq (hd : HandlesDistinct s) {e : AccessEntry} {l : Lease} (hl : l ∈ s.lm.leases)
    (hh : l.handle = e.handle) (ht : l.token = e.token) (hs : l.holder = e.session) : e.lease? s.lm.leases = some l := by
  refine find?_unique hl (by simp [hh, ht, hs]) fun k hk hp => eq_of_nodup_map hd hk hl ?_
  simp only [Bool.and_eq_true, decide_eq_true_eq] at hp
  obtain ⟨⟨hkh, -⟩, -⟩ := hp
  exact hkh.trans hh.symm

theorem State.startCheck_passes (hd : HandlesDistinct s) {e : AccessEntry} {l : Lease} (hon : s.panel.service = .online)
    (hr : (s.slots[e.slot]).state.isReady = true) (hl : l ∈ s.lm.leases) (hh : l.handle = e.handle) (ht : l.token = e.token)
    (hs : l.holder = e.session) : s.startCheck e = .ok l := by
  have hnot : ¬ s.panel.service = .service := by rw [hon]; nofun
  rw [State.startCheck, if_neg hnot, if_neg (by rw [hr]; nofun), AccessEntry.lease?_eq hd hl hh ht hs]

/-- What turns an access away at its start check (R131). -/
theorem State.startCheck_fails {e : AccessEntry} {st : Status}
    (h : (s.panel.service = .service ∧ st = .offline) ∨
      (s.panel.service = .online ∧ (s.slots[e.slot]).state.isReady = false ∧ st = .absent) ∨
      (s.panel.service = .online ∧ (s.slots[e.slot]).state.isReady = true ∧ st = .stale ∧
        ∀ l ∈ s.lm.leases, ¬ (l.handle = e.handle ∧ l.token = e.token ∧ l.holder = e.session))) :
    s.startCheck e = .error st := by
  have honline (hon : s.panel.service = .online) : ¬ s.panel.service = .service := by rw [hon]; nofun
  rcases h with ⟨hoff, rfl⟩ | ⟨hon, hr, rfl⟩ | ⟨hon, hr, rfl, hno⟩
  · exact if_pos hoff
  · exact (if_neg (honline hon)).trans (if_pos hr)
  · have hnone : e.lease? s.lm.leases = none :=
      List.find?_eq_none.2 fun l hl => by simpa [and_assoc] using hno l hl
    rw [State.startCheck, if_neg (honline hon), if_neg (by rw [hr]; nofun), hnone]

theorem State.chooseAccess_serve (hc : s.bp.cycle = none) (hi : s.bp.pendingIds = []) :
    s.chooseAccess = State.serveQueue s.bp.queue s := by
  simp only [State.chooseAccess, hc, hi]

theorem State.serveQueue_starts {e : AccessEntry} {rest : List AccessEntry} {l : Lease} (hok : s.startCheck e = .ok l) :
    State.serveQueue (e :: rest) s = (s.setQueue rest).startAccess e l := by
  simp only [State.serveQueue, hok]
  rfl

/-- Settles O11. -/
theorem arbiterStartsCycles : Obligations.ArbiterStartsCycles := by
  refine fun s hd => ⟨fun slot rest hc hi => congrArg Host.Outcome.next ?_,
    fun e rest l hc hi hq hon hr hl hh ht hs => congrArg Host.Outcome.next ?_,
    fun e rest st hc hi hq hst => congrArg Host.Outcome.next ?_, fun h => congrArg Host.Outcome.next ?_,
    fun h => congrArg Host.Outcome.next ?_, fun u hu => ?_, fun hc => ?_, fun slot d hc => ?_,
    fun h slot ch op reg discard d hc => ?_⟩
  · simp only [State.chooseIdentification, hc, hi]
    rfl
  · rw [State.chooseAccess_serve hc hi, hq, State.serveQueue_starts (State.startCheck_passes hd hon hr hl hh ht hs)]
    rfl
  · have hafter : ((s.setQueue rest).answer e.session st []).bp = (s.setQueue rest).bp :=
      (State.answer_frame (s.setQueue rest) e.session st []).2.2.2.1
    have hcycle := (congrArg Backplane.cycle hafter).trans hc
    have hids := (congrArg Backplane.pendingIds hafter).trans hi
    have hqueue : ((s.setQueue rest).answer e.session st []).bp.queue = rest := congrArg Backplane.queue hafter
    rw [State.chooseAccess_serve hc hi, hq, State.serveQueue_refuse (State.startCheck_fails hst)]
    exact ((State.chooseAccess_serve hcycle hids).trans (by rw [hqueue])).symm
  · unfold State.chooseIdentification
    split
    next hc hi => exact absurd h (by simp [hc, hi])
    next => rfl
  · unfold State.chooseAccess
    split
    next hc hi =>
      rcases h with h | h | h
      · exact absurd hc h
      · exact absurd hi h
      · rw [h, State.serveQueue, ← h]
    next => rfl
  · cases hu
    rfl
  · rw [State.presented, hc]
    rfl
  · rw [State.presented, hc]
    rfl
  · rw [State.presented, hc]
    rfl

/-! ### The arrival of an ACCESS -/

/-- The entry that an ACCESS under this lease, on this channel, queues (R127). -/
def AccessFields.entry (a : AccessFields) (h : Addr) (l : Lease) (c : ChannelNo) : AccessEntry :=
  { session := h, handle := l.handle, token := l.token, channel := c, op := a.op, register := a.register,
    slot := l.resource.slot }

/-- The checks of an ACCESS whose lease is found (R126). -/
theorem State.accessChecks_named {h : Addr} {a : AccessFields} {l : Lease} {c : ChannelNo} (hon : s.panel.service = .online)
    (hm : matchLease s.lm.leases h a.handle a.token = some l) (hc : channelNoOf a.channel = some c) : s.accessChecks h a =
      if l.resource.contains (s.slots[l.resource.slot]).state c = false then .error (.fault .badAccess (some 2))
      else if a.op.writes = true ∧ l.mode ≠ .exclusive then .error (.fault .badAccess (some 3))
      else if a.op.writes = true ∧ a.register = 255 then .error (.fault .badAccess (some 4))
      else .ok (a.entry h l c) := by
  have hnot : ¬ s.panel.service = .service := by rw [hon]; nofun
  rw [State.accessChecks, if_neg hnot]
  simp only [hm, hc]
  exact rfl

theorem State.accessChecks_unnamed {h : Addr} {a : AccessFields} {l : Lease} (hon : s.panel.service = .online)
    (hm : matchLease s.lm.leases h a.handle a.token = some l) (hc : channelNoOf a.channel = none) :
    s.accessChecks h a = .error (.fault .badAccess (some 2)) := by
  have hnot : ¬ s.panel.service = .service := by rw [hon]; nofun
  rw [State.accessChecks, if_neg hnot]
  simp only [hm, hc]

theorem channelNoOf_eq {b : Byte} {c : ChannelNo} (h : b.toNat = c.val) : channelNoOf b = some c := by
  have hlt : b.toNat < 4 := h ▸ c.isLt
  have hc : (⟨b.toNat, hlt⟩ : ChannelNo) = c := Fin.ext h
  rw [channelNoOf, dif_pos hlt, hc]

theorem channelNoOf_toNat {b : Byte} {c : ChannelNo} (h : channelNoOf b = some c) : b.toNat = c.val := by
  unfold channelNoOf at h
  split at h
  · cases h; rfl
  · cases h

/-- The channel field names a channel that the lease contains (R2). -/
theorem contained_iff {l : Lease} {b : Byte} : Contained s l b ↔
    ∃ c, channelNoOf b = some c ∧ l.resource.contains (s.slots[l.resource.slot]).state c = true := by
  refine ⟨fun ⟨c, n, cls, hb, hst, hlt, hch⟩ => ⟨c, channelNoOf_eq hb, Resource.contains_iff.2 ⟨n, cls, hst, hlt, hch⟩⟩,
    fun ⟨c, hb, hcont⟩ => ?_⟩
  obtain ⟨n, cls, hst, hlt, hch⟩ := Resource.contains_iff.1 hcont
  exact ⟨c, n, cls, channelNoOf_toNat hb, hst, hlt, hch⟩

theorem exec_access_checks {a : AccessFields} (hn : NewRequest s Kind.access f x)
    (hf : f.payload = accessRequestPayload a) : exec (.access f) s = .next
      (match s.accessChecks (frameHost f) a with
        | .error d => s.deniedRequest Kind.access f d
        | .ok e => (s.taking Kind.access f).joinQueue e) := by
  have hchecks : (s.taking Kind.access f).accessChecks (frameHost f) a = s.accessChecks (frameHost f) a := rfl
  rw [exec_access_new hn, hf, State.takeAccess, parseAccess_payload]
  refine congrArg Host.Outcome.next ?_
  dsimp only [State.parsed]
  rw [hchecks]
  cases s.accessChecks (frameHost f) a with
  | error d => exact s.taking_deny hn d
  | ok e => rfl

/-- Settles O13. -/
theorem accessArrives : Obligations.AccessArrives := by
  intro s f x a hn hf hd
  have denied {d : Denial} (h : s.accessChecks (frameHost f) a = .error d) :
      exec (.access f) s = .next (s.deniedRequest Kind.access f d) := by
    rw [exec_access_checks hn hf, h]
  refine ⟨fun hs => denied (if_pos hs), fun hon hno => denied ?_, fun l hon hm => ?_⟩
  · have hnot : ¬ s.panel.service = .service := by rw [hon]; nofun
    rw [State.accessChecks, if_neg hnot, matchLease_none s hno]
  · have hmatch := matchLease_matches s hd hm
    refine ⟨fun hno => denied ?_, fun w hcont hop hmode => denied ?_, fun w hcont hop hmode hreg => denied ?_,
      fun c hcont hc hok => ?_⟩
    · cases hch : channelNoOf a.channel with
      | none => exact State.accessChecks_unnamed hon hmatch hch
      | some c =>
        exact (State.accessChecks_named hon hmatch hch).trans
          (if_pos (Bool.eq_false_iff.2 fun h => hno (contained_iff.2 ⟨c, hch, h⟩)))
    · obtain ⟨c, hch, hin⟩ := contained_iff.1 hcont
      rw [State.accessChecks_named hon hmatch hch, if_neg (by rw [hin]; nofun),
        if_pos ⟨by rw [hop]; rfl, by rw [hmode]; nofun⟩]
    · obtain ⟨c, hch, hin⟩ := contained_iff.1 hcont
      rw [State.accessChecks_named hon hmatch hch, if_neg (by rw [hin]; nofun), if_neg (fun h => h.2 hmode),
        if_pos ⟨by rw [hop]; rfl, hreg⟩]
    · obtain ⟨c', hch, hin⟩ := contained_iff.1 hcont
      obtain rfl : c' = c := Option.some.inj (hch.symm.trans (channelNoOf_eq hc))
      have hwrites : a.op.writes = true → l.mode = .exclusive ∧ a.register ≠ 255 := by
        rintro hw
        rcases hok with hop | hok
        · rw [hop] at hw; cases hw
        · exact hok
      have hentry : s.accessChecks (frameHost f) a = .ok (a.entry (frameHost f) l c') := by
        rw [State.accessChecks_named hon hmatch hch, if_neg (by rw [hin]; nofun), if_neg (fun h => h.2 (hwrites h.1).1),
          if_neg (fun h => (hwrites h.1).2 h.2)]
      have hexec : exec (.access f) s = .next (((s.taking Kind.access f).setQueue
          (s.bp.queue ++ [a.entry (frameHost f) l c'])).arbitrate) := by
        rw [exec_access_checks hn hf, hentry]
        rfl
      refine ⟨hexec, fun hc hi hq hr => hexec.trans (congrArg Host.Outcome.next ?_)⟩
      obtain ⟨hlive, -, -, hholder⟩ := hm
      have hcheck : ((s.taking Kind.access f).setQueue (s.bp.queue ++ [a.entry (frameHost f) l c'])).startCheck
          (a.entry (frameHost f) l c') = .ok l :=
        State.startCheck_passes hd hon hr hlive rfl rfl hholder
      have hserve := State.arbitrate_serve (s := (s.taking Kind.access f).setQueue
        (s.bp.queue ++ [a.entry (frameHost f) l c'])) hc hi
      have hqueue : ((s.taking Kind.access f).setQueue (s.bp.queue ++ [a.entry (frameHost f) l c'])).bp.queue =
          [a.entry (frameHost f) l c'] := congrArg (· ++ [a.entry (frameHost f) l c']) hq
      rw [hserve, hqueue, State.serveQueue_starts hcheck, ← hq]
      rfl

end Sys2Proof.Machine
end

section
/-! PROOFS. Attention rises, the ends of cycles and vacates (R8 to R14, R39, R60, R133 to R136, R144, R145). -/

namespace Sys2Proof.Machine

variable {s t u v : State} {f : Frame} {x : Session}

/-! ### Several bookings fire -/

/-- What several sessions are handed, each one ATTENTION for the slot (R144). -/
theorem State.foldl_attention_session? {slot : SlotNo} {bs : List Booking} (hslot : ∀ b ∈ bs, b.slot = slot)
    (hn : (bs.map Booking.session).Nodup) (s : State) (h : Addr) :
    (bs.foldl (fun (v : State) (b : Booking) => v.handNotice b.session (.attention b.slot)) s).session? h =
      (s.session? h).map (fun x => if bs.any (fun b => decide (b.session = h)) then
        { x with out := x.out.hand (s.flying h) (.attention slot) } else x) := by
  induction bs generalizing s with
  | nil => simp
  | cons b bs ih =>
    rw [List.map_cons, List.nodup_cons] at hn
    obtain ⟨hnew, hn⟩ := hn
    have hb : b.slot = slot := hslot b List.mem_cons_self
    have hone : (s.handNotice b.session (.attention b.slot)).session? h = (s.session? h).map (fun x =>
        if x.host = b.session then { x with out := x.out.hand (s.flying b.session) (.attention slot) } else x) := by
      rw [hb]
      exact s.mapSession_session? b.session
        (fun x => { x with out := x.out.hand (s.flying b.session) (.attention slot) }) (fun _ => rfl) h
    rw [List.foldl_cons, ih (fun c hc => hslot c (List.mem_cons_of_mem _ hc)) hn, hone, Option.map_map]
    cases hx : s.session? h with
    | none => rfl
    | some x =>
      have hh := s.session?_host hx
      refine congrArg some ?_
      dsimp only [Function.comp]
      by_cases hbh : b.session = h
      · have hrest : bs.any (fun c => decide (c.session = h)) = false :=
          List.any_eq_false.2 fun c hc he => hnew (List.mem_map.2 ⟨c, hc, (of_decide_eq_true he).trans hbh.symm⟩)
        simp [hbh, hh, hrest]
      · have hxb : ¬ x.host = b.session := fun e => hbh (e.symm.trans hh)
        rw [if_neg hxb, List.any_cons, decide_eq_false hbh, Bool.false_or]
        rfl

/-- The bookings after several have fired (R144). -/
theorem mem_fireBookings {p : Booking → Bool} {bs : List Booking} {b : Booking} : b ∈ fireBookings p bs ↔
    (b ∈ bs ∧ ¬ (p b = true ∧ b.state = .armed)) ∨
    (b.state = .fired ∧ b.mode = .standing ∧ p { b with state := .armed } = true ∧ { b with state := .armed } ∈ bs) := by
  rw [fireBookings, List.mem_filterMap]
  constructor
  · rintro ⟨c, hc, he⟩
    split_ifs at he with hp
    · simp only [Bool.and_eq_true, decide_eq_true_eq] at hp
      obtain ⟨session, sl, mode, st⟩ := c
      obtain ⟨hp, rfl⟩ := hp
      cases mode with
      | once => cases he
      | standing =>
        cases he
        exact .inr ⟨rfl, rfl, hp, hc⟩
    · cases he
      simp only [Bool.and_eq_true, decide_eq_true_eq] at hp
      exact .inl ⟨hc, hp⟩
  · rintro (⟨hb, hp⟩ | ⟨hst, hm, hp, hb⟩)
    · exact ⟨b, hb, if_neg (by simpa using hp)⟩
    · obtain ⟨session, sl, mode, st⟩ := b
      subst hst hm
      exact ⟨_, hb, (if_pos (by simp [hp])).trans rfl⟩

/-- A rise that is reported (R145). -/
theorem State.reportRise_fired (hd : BookingsDistinct s) (slot : SlotNo) : Fired (fun _ => true) slot s (s.reportRise slot) := by
  have hfold : s.reportRise slot = { s with
      bookings := fireBookings (fun b => decide (b.slot = slot)) s.bookings,
      sessions := (s.reportRise slot).sessions } :=
    State.foldl_handNotice_eq Booking.session (fun b => .attention b.slot)
      (s.bookings.filter (fun b => decide (b.slot = slot) && decide (b.state = .armed)))
      (u := { s with bookings := fireBookings (fun b => decide (b.slot = slot)) s.bookings })
      (v := { s with bookings := fireBookings (fun b => decide (b.slot = slot)) s.bookings }) rfl rfl
  have hchosen : ∀ b ∈ s.bookings.filter (fun b => decide (b.slot = slot) && decide (b.state = .armed)), b.slot = slot :=
    fun b hb => of_decide_eq_true (Bool.and_eq_true_iff.1 (List.mem_filter.1 hb).2).1
  have hsessions : ((s.bookings.filter (fun b => decide (b.slot = slot) && decide (b.state = .armed))).map
      Booking.session).Nodup := by
    refine List.Nodup.map_on (fun a ha b hb he => ?_) (List.Nodup.filter _ (List.Nodup.of_map _ hd))
    exact eq_of_nodup_map hd (List.mem_of_mem_filter ha) (List.mem_of_mem_filter hb)
      (Prod.ext he ((hchosen a ha).trans (hchosen b hb).symm))
  refine ⟨?_, fun b => ?_, fun h => ?_⟩
  · rw [hfold]
  · have hb : (s.reportRise slot).bookings = fireBookings (fun b => decide (b.slot = slot)) s.bookings := by rw [hfold]
    rw [hb, mem_fireBookings]
    simp only [decide_eq_true_eq, true_and, and_comm, and_left_comm]
  · have hany : (s.bookings.filter (fun b => decide (b.slot = slot) && decide (b.state = .armed))).any
        (fun b => decide (b.session = h)) = s.armedOn h slot := by
      rw [List.any_filter, State.armedOn]
      congr 1
      funext b
      rw [Bool.and_comm, Bool.and_assoc]
    refine (State.foldl_attention_session? hchosen hsessions _ h).trans ?_
    rw [hany]
    simp only [Bool.true_and]
    rfl

theorem State.reportIfRaised_low {slot : SlotNo} (h : (s.slots[slot]).effective = false) : s.reportIfRaised slot = s :=
  if_neg (Bool.eq_false_iff.1 h)

theorem State.reportIfRaised_high {slot : SlotNo} (h : (s.slots[slot]).effective = true) :
    s.reportIfRaised slot = s.reportRise slot := if_pos h

/-- Settles O10. -/
theorem attentionLineRecorded : Obligations.AttentionLineRecorded := by
  intro s slot
  have hsame : ((s.setSlot slot (fun r => { r with attention := true })).slots[slot]).effective =
      (s.slots[slot]).state.isReady := by
    rw [State.setSlot_same]
    exact Bool.and_true _
  have hrise (ha : (s.slots[slot]).attention = false) : s.attentionRise slot =
      (s.setSlot slot (fun r => { r with attention := true })).reportIfRaised slot :=
    if_neg (Bool.eq_false_iff.1 ha)
  refine ⟨fun ha hr => congrArg Host.Outcome.next ?_, fun ha hr hd => ⟨_, rfl, ?_⟩,
    fun ha => congrArg Host.Outcome.next (if_pos ha), rfl⟩
  · exact (hrise ha).trans (State.reportIfRaised_low (hsame.trans hr))
  · have hfired := State.reportRise_fired (s := s.setSlot slot (fun r => { r with attention := true })) hd slot
    rw [hrise ha, State.reportIfRaised_high (hsame.trans hr)]
    exact hfired

/-! ### The ends of cycles -/

theorem State.endCycle_identify {slot : SlotNo} {d : Instant} (hc : s.bp.cycle = some ⟨.identify slot, d⟩)
    (hs : (s.slots[slot]).state = .identifying) (o : CycleOutcome) : s.endCycle o =
      ((s.freeBackplane.setSlot slot (fun r => { r with state := outcomeState o })).reportIfRaised slot).arbitrate := by
  have hs' : (s.freeBackplane.slots[slot]).state = .identifying := hs
  simp only [State.endCycle, hc, State.identified, hs']

theorem State.endCycle_access {h : Addr} {slot : SlotNo} {ch : ChannelNo} {op : Operation} {reg : Byte} {discard : Bool}
    {d : Instant} (hc : s.bp.cycle = some ⟨.access h slot ch op reg discard, d⟩) (o : CycleOutcome) : s.endCycle o =
      ((if discard then s else s.answer h .done (accessPayload op o)).freeBackplane).walk.arbitrate := by
  simp only [State.endCycle, hc]

theorem State.cycleOn_of {c : Cycle} (hc : s.bp.cycle = some c) : s.cycleOn c.kind.slot = true := by
  simp only [State.cycleOn, hc, decide_true]

theorem exec_moduleAnswer {slot : SlotNo} (hon : s.cycleOn slot = true) (a : ModuleAnswer) :
    exec (.moduleAnswer slot a) s = .next (s.endCycle (answerOutcome a)) :=
  congrArg Host.Outcome.next (if_pos hon)

theorem exec_silenceExpiry {c : Cycle} (hc : s.bp.cycle = some c) :
    exec .silenceExpiry s = .next ((s.reach c.silence).endCycle .silent) := by
  have hfall : s.fallSilent = (s.reach c.silence).endCycle .silent := by simp only [State.fallSilent, hc]
  exact congrArg Host.Outcome.next hfall

theorem exec_moduleAnswer_identify {slot : SlotNo} {d : Instant} (hc : s.bp.cycle = some ⟨.identify slot, d⟩)
    (hs : (s.slots[slot]).state = .identifying) (a : ModuleAnswer) : exec (.moduleAnswer slot a) s = .next
      ((s.freeBackplane.setSlot slot (fun r => { r with state := outcomeState (answerOutcome a) })).reportIfRaised
        slot).arbitrate :=
  (exec_moduleAnswer (State.cycleOn_of hc) a).trans (congrArg Host.Outcome.next (State.endCycle_identify hc hs _))

theorem exec_moduleAnswer_access {h : Addr} {slot : SlotNo} {ch : ChannelNo} {op : Operation} {reg : Byte} {discard : Bool}
    {d : Instant} (hc : s.bp.cycle = some ⟨.access h slot ch op reg discard, d⟩) (a : ModuleAnswer) :
    exec (.moduleAnswer slot a) s = .next
      ((if discard then s else s.answer h .done (accessPayload op (answerOutcome a))).freeBackplane).walk.arbitrate :=
  (exec_moduleAnswer (State.cycleOn_of hc) a).trans (congrArg Host.Outcome.next (State.endCycle_access hc _))

/-- The attention level of a slot is what it was before its identification. -/
theorem State.effective_outcome {slot : SlotNo} {st : SlotState} :
    ((s.setSlot slot (fun r => { r with state := st })).slots[slot]).effective = (st.isReady && (s.slots[slot]).attention) := by
  rw [State.setSlot_same]
  rfl

theorem State.reportIfRaised_outcome {slot : SlotNo} {st : SlotState} (h : (st.isReady && (s.slots[slot]).attention) = false) :
    (s.setSlot slot (fun r => { r with state := st })).reportIfRaised slot = s.setSlot slot (fun r => { r with state := st }) :=
  State.reportIfRaised_low (State.effective_outcome.trans h)

theorem descriptorState_ready {word : Word16} (h1 : 1 ≤ (word.extractLsb' 8 4).toNat) (h4 : (word.extractLsb' 8 4).toNat ≤ 4) :
    outcomeState (.accepted word) = .ready (word.extractLsb' 8 4) (word.extractLsb' 0 8) := if_pos ⟨h1, h4⟩

theorem descriptorState_faulted {word : Word16} (h : (word.extractLsb' 8 4).toNat = 0 ∨ 4 < (word.extractLsb' 8 4).toNat) :
    outcomeState (.accepted word) = .faulted := by
  refine if_neg fun hn => ?_
  obtain ⟨h1, h4⟩ := hn
  have h1' : 1 ≤ (word.extractLsb' 8 4).toNat := h1
  have h4' : (word.extractLsb' 8 4).toNat ≤ 4 := h4
  omega

/-- Settles O12. -/
theorem cyclesEnd : Obligations.CyclesEnd := by
  refine ⟨fun s slot d hc hs hd => ⟨fun word => ⟨fun h1 h4 ha => ?_, fun h1 h4 ha => ?_, fun hbad => ?_⟩, ?_, ?_⟩,
    fun s h slot ch op reg discard d hc => ⟨fun word => ?_, ?_, ?_⟩,
    fun s slot a hoff => congrArg Host.Outcome.next (if_neg (Bool.eq_false_iff.1 hoff)), fun s hc => ?_⟩
  · refine (exec_moduleAnswer_identify hc hs _).trans (congrArg (fun u => Host.Outcome.next (State.arbitrate u)) ?_)
    rw [answerOutcome, descriptorState_ready h1 h4]
    exact State.reportIfRaised_outcome (Bool.and_eq_false_iff.2 (.inr ha))
  · have heffective : ((s.freeBackplane.setSlot slot
        (fun r => { r with state := outcomeState (.accepted word) })).slots[slot]).effective = true := by
      rw [State.effective_outcome, descriptorState_ready h1 h4]
      exact ha
    have hexec := (exec_moduleAnswer_identify hc hs (.accept word)).trans
      (congrArg (fun u => Host.Outcome.next (State.arbitrate u)) (State.reportIfRaised_high heffective))
    rw [answerOutcome, descriptorState_ready h1 h4] at hexec
    exact ⟨_, State.reportRise_fired (s := s.freeBackplane.setSlot slot (fun r => { r with
      state := .ready (word.extractLsb' 8 4) (word.extractLsb' 0 8) })) hd slot, hexec⟩
  · refine (exec_moduleAnswer_identify hc hs _).trans (congrArg (fun u => Host.Outcome.next (State.arbitrate u)) ?_)
    rw [answerOutcome, descriptorState_faulted hbad]
    exact State.reportIfRaised_outcome rfl
  · refine (exec_moduleAnswer_identify hc hs _).trans (congrArg (fun u => Host.Outcome.next (State.arbitrate u)) ?_)
    exact State.reportIfRaised_outcome rfl
  · refine (exec_silenceExpiry hc).trans (congrArg Host.Outcome.next ?_)
    refine (State.endCycle_identify (s := s.reach d) hc hs .silent).trans (congrArg State.arbitrate ?_)
    exact State.reportIfRaised_outcome rfl
  · refine (exec_moduleAnswer_access hc _).trans ?_
    cases op <;> rfl
  · refine (exec_moduleAnswer_access hc _).trans ?_
    cases op <;> rfl
  · refine (exec_silenceExpiry hc).trans (congrArg Host.Outcome.next ?_)
    refine (State.endCycle_access (s := s.reach d) hc .silent).trans ?_
    cases op <;> rfl
  · have hfall : s.fallSilent = s := by simp only [State.fallSilent, hc]
    exact congrArg Host.Outcome.next hfall

/-! ### Presence drops -/

/-- Settles O7. -/
theorem presenceDropWithoutVacate : Obligations.PresenceDropWithoutVacate := by
  intro s slot hp
  have hpresent : ¬ (s.slots[slot]).presence = false := by rw [hp]; nofun
  refine ⟨fun h => congrArg Host.Outcome.next ?_, fun hs hoff => congrArg Host.Outcome.next ?_,
    fun d hs hc => congrArg Host.Outcome.next ?_⟩
  · rw [State.presenceDrop, if_neg hpresent]
    rcases h with ⟨d, hs⟩ | hs
    · simp only [hs]
      rfl
    · simp only [hs]
      rfl
  · have hdrop : s.presenceDrop slot = ((s.emptySlot slot).withdraw slot).silenceSlot slot := by
      rw [State.presenceDrop, if_neg hpresent]
      simp only [hs]
    exact hdrop.trans (if_neg (Bool.eq_false_iff.1 hoff))
  · have hdrop : s.presenceDrop slot = ((s.emptySlot slot).withdraw slot).silenceSlot slot := by
      rw [State.presenceDrop, if_neg hpresent]
      simp only [hs]
    exact hdrop.trans (State.silenceSlot_abandon hc rfl)

/-- A completion looks at the sessions alone. -/
theorem State.handCompletion_congr (hs : u.sessions = v.sessions) (h : Addr) (tag : Tag) (o : Completion) :
    (u.handCompletion h tag o).sessions = (v.handCompletion h tag o).sessions := by
  simp only [State.handCompletion, State.mapQueue, State.mapSession, hs]

theorem State.foldl_handCompletion_eq (o : Completion) (ws : List Wait) (hs : u.sessions = v.sessions) :
    ws.foldl (fun (s : State) (w : Wait) => s.handCompletion w.session w.tag o) u =
      { u with sessions := (ws.foldl (fun (s : State) (w : Wait) => s.handCompletion w.session w.tag o) v).sessions } := by
  induction ws generalizing u v with
  | nil => exact congrArg (fun xs => { u with sessions := xs }) hs
  | cons w ws ih =>
    have hnext := ih (State.handCompletion_congr hs w.session w.tag o)
    exact hnext

/-- The ends of waits: the sessions are told, in the order given, and the records go (R57, R60). -/
theorem State.completeWaits_told (o : Completion) (ws : List Wait) (s : State) : s.completeWaits o ws =
    (ws.foldl (fun (v : State) (w : Wait) => v.handCompletion w.session w.tag o) s).setWaits
      (s.lm.waits.filter (fun w => ws.all (fun v => !(decide (w.session = v.session) && decide (w.tag = v.tag))))) := by
  induction ws generalizing s with
  | nil =>
    rw [State.setWaits, List.filter_eq_self.2 fun _ _ => List.all_nil]
    rfl
  | cons w ws ih =>
    have hdrop (u : State) : ws.foldl (fun (v : State) (w : Wait) => v.handCompletion w.session w.tag o)
        (u.dropWait w.session w.tag) = (ws.foldl (fun (v : State) (w : Wait) => v.handCompletion w.session w.tag o)
        u).dropWait w.session w.tag :=
      List.foldl_hom (State.dropWait w.session w.tag) fun _ _ => rfl
    have hone : s.completeWait o w = (s.handCompletion w.session w.tag o).dropWait w.session w.tag := rfl
    have hstep : s.completeWaits o (w :: ws) = (s.completeWait o w).completeWaits o ws := rfl
    have hwaits : ((s.handCompletion w.session w.tag o).dropWait w.session w.tag).lm.waits =
        s.lm.waits.filter (fun v => !(decide (v.session = w.session) && decide (v.tag = w.tag))) := rfl
    rw [hstep, hone, ih, hdrop, hwaits, List.filter_filter]
    simp only [List.all_cons, List.foldl_cons, Bool.and_comm]
    rfl

/-- Sessions and tags name wait records (R49): the records that go with a chosen set are those of the set. -/
theorem WaitsDistinct.keep_others (hd : WaitsDistinct s) (member : Wait → Bool) :
    s.lm.waits.filter (fun w => (s.lm.waits.filter member).all
      (fun v => !(decide (w.session = v.session) && decide (w.tag = v.tag)))) = s.lm.waits.filter (fun w => !member w) := by
  refine List.filter_congr fun w hw => Bool.eq_iff_iff.2 ?_
  simp only [List.all_eq_true, List.mem_filter, ← Bool.decide_and, ← decide_not, decide_eq_true_eq, Bool.not_eq_true',
    and_imp]
  refine ⟨fun h => ?_, fun hw' v hv hm he => ?_⟩
  · by_contra hm
    exact h w hw (by simpa using hm) ⟨rfl, rfl⟩
  · obtain rfl := eq_of_nodup_map hd hw hv (Prod.ext he.1 he.2)
    rw [hw'] at hm
    cases hm

/-- The ends of all the waits of a chosen set. -/
theorem State.completeWaits_filter (hd : WaitsDistinct s) (hs : s.sessions = v.sessions) (o : Completion)
    (member : Wait → Bool) : s.completeWaits o (s.lm.waits.filter member) =
      { s with
        sessions := ((s.lm.waits.filter member).foldl
          (fun (v : State) (w : Wait) => v.handCompletion w.session w.tag o) v).sessions,
        lm := { s.lm with waits := s.lm.waits.filter (fun w => !member w) } } := by
  rw [State.completeWaits_told, State.foldl_handCompletion_eq o _ hs, hd.keep_others member]
  rfl

/-- The vacate of a slot, before its walk (R39, R60). -/
theorem State.vacated_told (hd : HandlesDistinct s) (hw : WaitsDistinct s) (slot : SlotNo) : s.vacated slot =
    { s with
      sessions := ((s.lm.waits.filter (fun w => decide (w.resource.slot = slot))).foldl
        (fun (v : State) (w : Wait) => v.handCompletion w.session w.tag .vacated)
        ((s.lm.leases.filter (fun l => decide (l.resource.slot = slot))).foldl
          (fun (v : State) (l : Lease) => v.handNotice l.holder (l.noticeOf .vacated)) s)).sessions,
      lm := { s.lm with leases := s.lm.leases.filter (fun l => decide (l.resource.slot ≠ slot)),
                        waits := s.lm.waits.filter (fun w => decide (w.resource.slot ≠ slot)) } } := by
  have hleases := State.retireAll_filter (v := s) hd rfl rfl (r := .vacated) rfl (fun l => decide (l.resource.slot = slot))
  simp only [decide_not, ne_eq]
  rw [State.vacated, hleases]
  exact State.completeWaits_filter (s := { s with
      sessions := ((s.lm.leases.filter (fun l => decide (l.resource.slot = slot))).foldl
        (fun (v : State) (l : Lease) => v.handNotice l.holder (l.noticeOf .vacated)) s).sessions,
      lm := { s.lm with leases := s.lm.leases.filter (fun l => !decide (l.resource.slot = slot)) } })
    (v := (s.lm.leases.filter (fun l => decide (l.resource.slot = slot))).foldl
      (fun (v : State) (l : Lease) => v.handNotice l.holder (l.noticeOf .vacated)) s) hw rfl .vacated
    (fun w => decide (w.resource.slot = slot))

theorem State.vacated_bp {slot : SlotNo} : (s.vacated slot).bp = s.bp := by
  simp [State.vacated]

/-- Settles O8. -/
theorem vacateEmptiesSlot : Obligations.VacateEmptiesSlot := by
  intro s slot n cls hs hp hd hw
  have hpresent : ¬ (s.slots[slot]).presence = false := by rw [hp]; nofun
  have hdrop : s.presenceDrop slot = (((s.vacated slot).emptySlot slot).walk).silenceSlot slot := by
    rw [State.presenceDrop, if_neg hpresent]
    simp only [hs]
    rw [State.vacateLeases_emptySlot]
  have hbp : (((s.vacated slot).emptySlot slot).walk).bp = s.bp := by
    rw [((s.vacated slot).emptySlot slot).walk_frame.2.2.2.1]
    exact State.vacated_bp
  have hcycleOn : (((s.vacated slot).emptySlot slot).walk).cycleOn slot = s.cycleOn slot := by
    simp only [State.cycleOn, hbp]
  have hexec : exec (.presenceDrop slot) s = .next ((((s.vacated slot).emptySlot slot).walk).silenceSlot slot) :=
    congrArg Host.Outcome.next hdrop
  rw [State.vacated_told hd hw] at hexec hbp hcycleOn
  refine ⟨fun hoff => hexec.trans (congrArg Host.Outcome.next (if_neg ?_)),
    fun h ch op reg discard d hc => hexec.trans (congrArg Host.Outcome.next ((if_pos ?_).trans ?_))⟩
  · exact Bool.eq_false_iff.1 (hcycleOn.trans hoff)
  · exact hcycleOn.trans (State.cycleOn_of hc)
  · refine (State.endCycle_access ((congrArg Backplane.cycle hbp).trans hc) .silent).trans ?_
    cases op <;> rfl

end Sys2Proof.Machine
end

section
/-! PROOFS. A second walk finds nothing (R53), and whose leases a request can end (R40, R70). -/

namespace Sys2Proof.Machine

variable {s t u v : State} {f : Frame} {x : Session}

/-! ### A second walk -/

/-- What has kept a record from being granted keeps it so while leases are added and the rest stays. -/
theorem State.walkHandle_none_kept {earlier : List Wait} {w : Wait} (h : s.walkHandle earlier w = none)
    (hl : ∀ l ∈ s.lm.leases, l ∈ t.lm.leases) (hb : t.bp = s.bp) (hs : t.slots = s.slots) (hp : t.panel = s.panel) :
    t.walkHandle earlier w = none := by
  unfold State.walkHandle at h ⊢
  split
  next hc =>
    obtain ⟨hon, hr, hg⟩ := hc
    rw [State.grantable_iff] at hg
    obtain ⟨hleases, hguard, hearlier⟩ := hg
    have hgrant : s.grantable earlier w.hold = true :=
      State.grantable_iff.2 ⟨fun l hm => hleases l (hl l hm), fun g hgs => hguard g (hb ▸ hgs), hearlier⟩
    rw [if_pos ⟨hp ▸ hon, hs ▸ hr, hgrant⟩] at h
    exact freeHandle_full.2 fun k => by
      obtain ⟨l, hm, hk⟩ := freeHandle_full.1 h k
      exact ⟨l, hl l hm, hk⟩
  next => rfl

/-- No record of this pool can be granted beside those before it. -/
def State.Settled (s : State) (pool : List Wait) : Prop :=
  ∀ before w after, pool = before ++ w :: after → s.walkHandle before w = none

theorem State.Settled.kept {pool : List Wait} (h : s.Settled pool) (hl : ∀ l ∈ s.lm.leases, l ∈ t.lm.leases)
    (hb : t.bp = s.bp) (hs : t.slots = s.slots) (hp : t.panel = s.panel) : t.Settled pool :=
  fun before w after e => State.walkHandle_none_kept (h before w after e) hl hb hs hp

theorem State.Settled.append {kept : List Wait} {w : Wait} (h : s.Settled kept) (hw : s.walkHandle kept w = none) :
    s.Settled (kept ++ [w]) := by
  intro before v after e
  rcases List.eq_nil_or_concat after with rfl | ⟨after', z, rfl⟩
  · obtain ⟨rfl, hz⟩ := List.append_inj' e rfl
    cases hz
    exact hw
  · have hsplit : kept ++ [w] = (before ++ v :: after') ++ [z] := by simpa using e
    obtain ⟨hk, -⟩ := List.append_inj' hsplit rfl
    exact h before v after' hk

/-- A pass leaves a pool in which nothing can be granted. -/
theorem State.walkFrom_settled {kept : List Wait} (rest : List Wait) (h : s.Settled kept) :
    (State.walkFrom kept rest s).Settled (State.walkFrom kept rest s).lm.waits := by
  induction rest generalizing kept s with
  | nil => exact h.kept (fun _ hl => hl) rfl rfl rfl
  | cons w rest ih =>
    cases hw : s.walkHandle kept w with
    | none =>
      rw [State.walkFrom_keep hw]
      exact ih (h.append hw)
    | some hd =>
      have hstep : State.walkFrom kept (w :: rest) s = State.walkFrom kept rest (s.grantWait hd w) := by
        simp only [State.walkFrom, hw]
      rw [hstep]
      exact ih (h.kept (fun l hl => List.mem_append_left _ hl) rfl rfl rfl)

/-- A pass over a pool in which nothing can be granted changes nothing. -/
theorem State.walkFrom_of_settled {kept rest : List Wait} (h : s.Settled (kept ++ rest)) :
    State.walkFrom kept rest s = s.setWaits (kept ++ rest) := by
  induction rest generalizing kept with
  | nil => rw [List.append_nil]; rfl
  | cons w rest ih =>
    have hassoc : kept ++ w :: rest = (kept ++ [w]) ++ rest := by simp
    rw [State.walkFrom_keep (h kept w rest rfl), hassoc]
    exact ih (hassoc ▸ h)

/-- Settles O57. -/
theorem walkFindsEveryGrant : Obligations.WalkFindsEveryGrant := by
  intro s
  have hsettled : s.walk.Settled s.walk.lm.waits := State.walkFrom_settled s.lm.waits fun before w after e => by simp at e
  exact State.walkFrom_of_settled (kept := []) hsettled

end Sys2Proof.Machine
end

section
/-! PROOFS. Whose leases a request can end (R31 to R40, R70, R119). -/

namespace Sys2Proof.Machine

variable {s t u v : State} {f : Frame} {x : Session}

/-- The leases of hosts other than this one stay. -/
def Spares (h : Addr) (s t : State) : Prop := ∀ l ∈ s.lm.leases, l.holder ≠ h → l ∈ t.lm.leases

theorem Spares.of_lm {h : Addr} (e : t.lm = s.lm) : Spares h s t := fun l hl _ => by rw [e]; exact hl

theorem Spares.trans {h : Addr} (ht : Spares h s t) (hu : Spares h t u) : Spares h s u :=
  fun l hl hn => hu l (ht l hl hn) hn

theorem Spares.walk (h : Addr) (s : State) : Spares h s s.walk := fun l hl _ => by
  obtain ⟨new, hnew⟩ := s.walk_leases
  rw [hnew]
  exact List.mem_append_left new hl

/-! ### Requests of the Lease Manager, and CLOSE -/

/-- A lease that matches is the session's own (R32). -/
theorem matchLease_holder {h : Addr} {handle : Byte} {token : Token} {l : Lease}
    (hm : matchLease s.lm.leases h handle token = some l) : l ∈ s.lm.leases ∧ l.holder = h := by
  have hp := List.find?_some hm
  simp only [Bool.and_eq_true, decide_eq_true_eq] at hp
  exact ⟨List.mem_of_find?_eq_some hm, hp.2⟩

/-- Another host's lease has another handle than any of the session's own (R19). -/
theorem HandlesDistinct.ne_of_holder (hd : HandlesDistinct s) {h : Addr} {k l : Lease} (hk : k ∈ s.lm.leases)
    (hl : l ∈ s.lm.leases) (hkh : k.holder = h) (hlh : l.holder ≠ h) : l.handle ≠ k.handle :=
  fun he => hlh (eq_of_nodup_map hd hl hk he ▸ hkh)

theorem Spares.parsed {α : Type} {h : Addr} {fields : Except Denial α} {run : α → State → State}
    (hrun : ∀ a, Spares h s (run a s)) : Spares h s (s.parsed h fields run) := by
  cases fields with
  | error d => exact .of_lm (s.deny_frame h d).2.2.1
  | ok a => exact hrun a

theorem State.takeRenew_spares (hd : HandlesDistinct s) (p : List Byte) (h : Addr) : Spares h s (s.takeRenew p h) := by
  refine .parsed fun _ => ?_
  dsimp only
  split
  · exact .of_lm (by simp)
  next k hm =>
    obtain ⟨hk, hkh⟩ := matchLease_holder hm
    split
    · exact .of_lm (by simp)
    · split
      · intro l hl hn
        rw [(State.answer_frame _ h .done _).2.2.1]
        exact List.mem_map.2 ⟨l, hl, if_neg (hd.ne_of_holder hk hl hkh hn)⟩
      · exact .of_lm (by simp)

theorem State.takeRelease_spares (hd : HandlesDistinct s) (p : List Byte) (h : Addr) : Spares h s (s.takeRelease p h) := by
  refine .parsed fun _ => ?_
  dsimp only
  split
  · exact .of_lm (by simp)
  next k hm =>
    obtain ⟨hk, hkh⟩ := matchLease_holder hm
    refine Spares.trans (t := (s.retire .released k).answer h .done []) (fun l hl hn => ?_) (.walk h _)
    rw [(State.answer_frame _ h .done []).2.2.1]
    exact List.mem_filter.2 ⟨hl, decide_eq_true (hd.ne_of_holder hk hl hkh hn)⟩

theorem State.takeCancel_spares (p : List Byte) (h : Addr) (s : State) : Spares h s (s.takeCancel p h) := by
  refine .parsed fun tag => ?_
  split
  · refine Spares.trans (t := ((s.dropWait h tag).mapSession h (fun x =>
      { x with tags := x.tags.filter (fun t => decide (t ≠ tag)) })).answer h .done []) (fun l hl _ => ?_) (.walk h _)
    rw [(State.answer_frame _ h .done []).2.2.1]
    exact hl
  · exact .of_lm (by simp)

theorem State.closeSession_spares (hd : HandlesDistinct s) (h : Addr) : Spares h s (s.closeSession h) := by
  rw [State.closeSession_eq]
  refine Spares.trans (t := s.purge h) (fun l hl hn => ?_) (.walk h _)
  rw [State.purge_eq]
  refine List.mem_filter.2 ⟨hl, List.all_eq_true.2 fun k hk => decide_eq_true ?_⟩
  obtain ⟨hk, hkh⟩ := List.mem_filter.1 hk
  exact hd.ne_of_holder hk hl (of_decide_eq_true hkh) hn

theorem State.takeClose_spares (hd : HandlesDistinct s) (seq : Byte) (p : List Byte) (h : Addr) :
    Spares h s (s.takeClose seq p h) :=
  .parsed fun _ => State.closeSession_spares hd h

/-! ### ACQUIRE -/

/-- A lease that a MANAGER's urgent ACQUIRE has marked (R70). -/
def Lease.marked (s : State) (l : Lease) : Lease :=
  l.recall (s.now + s.panel.config.tGrace.toNat * Config.second) (s.lm.arrivalCounter + 1)

theorem State.recall_leases (w : Wait) (s : State) : (s.recall w).lm.leases = s.lm.leases.map (fun l =>
    if l.state = .held ∧ w.hold.compatible l.hold = false then
      l.recall (s.now + s.panel.config.tGrace.toNat * Config.second) w.arrival
    else l) := by
  rw [State.recall, State.foldl_handNotice_lm]

/-- What a deferral makes of a lease: it stays, or an urgent one marks it (R70). -/
theorem State.deferAcquire_leases (h : Addr) (a : AcquireFields) (r : Resource) {l : Lease} (hl : l ∈ s.lm.leases) :
    l ∈ (s.deferAcquire h a r).lm.leases ∨
    (a.urgent = true ∧ l.state = .held ∧ l.marked s ∈ (s.deferAcquire h a r).lm.leases) := by
  unfold State.deferAcquire
  split_ifs with hu
  · obtain ⟨-, hnow, hlm, -, -, -, -, hpanel⟩ := State.answer_frame
      ((s.addWait (s.newWait h a r)).mapSession h (fun x => { x with tags := x.tags ++ [a.tag] })) h .deferred [tagByte a.tag]
    rw [State.recall_leases, hnow, hlm, hpanel]
    by_cases hc : l.state = .held ∧ (s.newWait h a r).hold.compatible l.hold = false
    · exact .inr ⟨hu, hc.1, List.mem_map.2 ⟨l, hl, if_pos hc⟩⟩
    · exact .inl (List.mem_map.2 ⟨l, hl, if_neg hc⟩)
  · refine .inl ?_
    rw [(State.answer_frame _ h .deferred _).2.2.1]
    exact hl

theorem State.decideAcquire_leases (h : Addr) (a : AcquireFields) (r : Resource) {l : Lease} (hl : l ∈ s.lm.leases) :
    l ∈ (s.decideAcquire h a r).lm.leases ∨
    (a.urgent = true ∧ l.state = .held ∧ l.marked s ∈ (s.decideAcquire h a r).lm.leases) := by
  simp only [State.decideAcquire]
  split
  · refine .inl ?_
    rw [(State.answer_frame _ h .granted _).2.2.1]
    exact List.mem_append_left _ hl
  · split_ifs
    · exact .inl (by simpa using hl)
    · exact .inl (by simpa using hl)
    · exact .inl (by simpa using hl)
    · exact .inl (by simpa using hl)
    · exact State.deferAcquire_leases h a r hl

/-- The urgent flag is the last field of the payload (R176). -/
theorem parseAcquire_urgent {p : List Byte} {a : AcquireFields} (h : parseAcquire p = .ok a) (hu : a.urgent = true) :
    p.getD 7 0 = 0x01 := by
  unfold parseAcquire at h
  split at h
  next tag slot channel mode t1 t0 waitLimit urgent =>
    split at h
    · cases h
    · cases h
    · cases h
    next tg m u _ _ hflag =>
      cases h
      obtain rfl : u = true := hu
      unfold flagOf at hflag
      split_ifs at hflag with h0 h1
      · cases hflag
      · exact h1
  · cases h

/-- What an ACQUIRE makes of a lease: it stays, or a MANAGER's urgent one marks it (R70, R104). -/
theorem State.takeAcquire_leases (p : List Byte) (h : Addr) {l : Lease} (hl : l ∈ s.lm.leases) :
    l ∈ (s.takeAcquire p h).lm.leases ∨
    (p.getD 7 0 = 0x01 ∧ l.state = .held ∧ s.isManager h = true ∧ l.marked s ∈ (s.takeAcquire p h).lm.leases) := by
  rw [State.takeAcquire]
  cases hp : parseAcquire p with
  | error d => exact .inl (by simpa [State.parsed] using hl)
  | ok a =>
    dsimp only [State.parsed]
    cases hc : s.acquireChecks h a with
    | error d => exact .inl (by simpa using hl)
    | ok r =>
      dsimp only
      obtain ⟨-, -, hmanager⟩ := State.acquireChecks_ok hc
      rcases State.decideAcquire_leases h a r hl with hstays | ⟨hu, hheld, hmarked⟩
      · exact .inl hstays
      · exact .inr ⟨parseAcquire_urgent hp hu, hheld, hmanager hu, hmarked⟩

/-! ### Every request -/

theorem State.sequenced_lm {kind seq : Byte} {run : State → State} (hnot : ¬ (seq = x.lastSeq + 1 ∧ x.inFlight = false))
    (s : State) : (s.sequenced x kind seq run).lm = s.lm := by
  unfold State.sequenced
  split_ifs with hseq hbusy
  · simp
  · exact absurd ⟨hseq, Bool.eq_false_iff.2 hbusy⟩ hnot
  · rfl
  · split
    · simp
    · rfl
  · simp [State.sequenceFault]

/-- A request leaves the Lease Manager alone, or it is new and is carried out (R86, R96, R107). -/
theorem State.takeRequest_lm_cases {kind : Byte} {other run : Addr → State → State} (hother : ∀ h u, (other h u).lm = u.lm)
    (f : Frame) (s : State) : (s.takeRequest kind f other run).lm = s.lm ∨
      ∃ x, NewRequest s kind f x ∧ s.takeRequest kind f other run = run (frameHost f) (s.taking kind f) := by
  cases hr : s.receives with
  | false => exact .inl (by rw [State.takeRequest, s.takeFrame_deaf hr])
  | true =>
    by_cases hpass : f.payload.length ≤ Config.maxPayload ∧ accepted s.panel.nodeAddress FrameKind.request kind f = true
    · have ha : Accepts s FrameKind.request kind f := ⟨hr, hpass.1, hpass.2⟩
      have htake : s.takeRequest kind f other run = match (s.accepting f).session? (frameHost f) with
          | none => other (frameHost f) (s.accepting f)
          | some x => (s.accepting f).sequenced x kind f.seq (run (frameHost f)) := State.takeFrame_accepts _ ha _
      cases hx : s.session? (frameHost f) with
      | none =>
        rw [State.accepting_none hx] at htake
        exact .inl (htake ▸ hother _ _)
      | some x =>
        rw [State.accepting_found hx] at htake
        by_cases hnew : f.seq = x.lastSeq + 1 ∧ x.inFlight = false
        · have hn : NewRequest s kind f x := ⟨ha, hx, hnew.1, hnew.2⟩
          exact .inr ⟨x, hn, s.takeRequest_new hn other run⟩
        · have hnot : ¬ (f.seq = x.resume.lastSeq + 1 ∧ x.resume.inFlight = false) := by
            simpa only [Session.resume_fields] using hnew
          exact .inl (htake ▸ State.sequenced_lm hnot (s.accepting f))
    · have hdiscard : s.takeRequest kind f other run = s.endReception := by
        rw [State.takeRequest, State.takeFrame, if_pos hr, if_neg hpass]
        rfl
      exact .inl (by rw [hdiscard]; rfl)

/-- A request whose carrying out leaves the other hosts' leases leaves them. -/
theorem State.takeRequest_spares {kind : Byte} {other run : Addr → State → State} (hd : HandlesDistinct s)
    (hother : ∀ h u, (other h u).lm = u.lm) (hrun : ∀ h u, HandlesDistinct u → Spares h u (run h u)) (f : Frame) :
    Spares (frameHost f) s (s.takeRequest kind f other run) := by
  rcases State.takeRequest_lm_cases hother f s with hlm | ⟨x, -, he⟩
  · exact .of_lm hlm
  · rw [he]
    exact hrun (frameHost f) (s.taking kind f) hd

theorem State.takeRequest_spares_lm {kind : Byte} {other run : Addr → State → State}
    (hother : ∀ h u, (other h u).lm = u.lm) (hrun : ∀ h u, (run h u).lm = u.lm) (f : Frame) (s : State) :
    Spares (frameHost f) s (s.takeRequest kind f other run) := by
  rcases State.takeRequest_lm_cases hother f s with hlm | ⟨x, -, he⟩
  · exact .of_lm hlm
  · rw [he]
    exact .of_lm (hrun (frameHost f) (s.taking kind f))

/-- Every request but an ACQUIRE leaves the leases of the other hosts. -/
theorem exec_request_spares {c : Instr} {kind : Byte} (hd : HandlesDistinct s) (hc : requestOf c = some (kind, f))
    (ht : exec c s = .next t) : kind = Kind.acquire ∨ Spares (frameHost f) s t := by
  cases c with
  | acquire => cases hc; exact .inl rfl
  | closeSession =>
    cases hc; cases ht
    exact .inr (State.takeRequest_spares hd (State.noSession_lm _) (fun h u hu => State.takeClose_spares hu _ _ h) f)
  | renew =>
    cases hc; cases ht
    exact .inr (State.takeRequest_spares hd (State.noSession_lm _) (fun h u hu => State.takeRenew_spares hu _ h) f)
  | release =>
    cases hc; cases ht
    exact .inr (State.takeRequest_spares hd (State.noSession_lm _) (fun h u hu => State.takeRelease_spares hu _ h) f)
  | cancel =>
    cases hc; cases ht
    exact .inr (State.takeRequest_spares hd (State.noSession_lm _) (fun h u _ => State.takeCancel_spares _ h u) f)
  | fetchFault =>
    cases hc; cases ht
    exact .inr (State.takeRequest_spares_lm (State.noSession_lm _) (State.takeFetchFault_lm _) f s)
  | query =>
    cases hc; cases ht
    exact .inr (State.takeRequest_spares_lm (State.noSession_lm _) (State.takeQuery_lm _) f s)
  | access =>
    cases hc; cases ht
    exact .inr (State.takeRequest_spares_lm (State.noSession_lm _) (State.takeAccess_lm _) f s)
  | book =>
    cases hc; cases ht
    exact .inr (State.takeRequest_spares_lm (State.noSession_lm _) (State.takeBook_lm _) f s)
  | unbook =>
    cases hc; cases ht
    exact .inr (State.takeRequest_spares_lm (State.noSession_lm _) (State.takeUnbook_lm _) f s)
  | rearm =>
    cases hc; cases ht
    exact .inr (State.takeRequest_spares_lm (State.noSession_lm _) (State.takeRearm_lm _) f s)
  | probe =>
    cases hc; cases ht
    exact .inr (State.takeRequest_spares_lm (State.probeNoSession_lm _) State.takeProbe_lm f s)
  | configure =>
    cases hc; cases ht
    exact .inr (State.takeRequest_spares_lm (State.noSession_lm _) (State.takeConfigure_lm _) f s)
  | resetController =>
    cases hc; cases ht
    exact .inr (State.takeRequest_spares_lm (State.noSession_lm _) (State.takeResetController_lm _) f s)
  | unknownRequestKind k g =>
    rw [requestOf] at hc
    split_ifs at hc with hk
    cases hc
    have hexec : exec (.unknownRequestKind kind f) s =
        .next (s.takeRequest kind f (State.noSession f.seq) State.takeUnknown) :=
      congrArg Host.Outcome.next (if_neg hk)
    rw [hexec] at ht
    cases ht
    exact .inr (State.takeRequest_spares_lm (State.noSession_lm _) State.takeUnknown_lm f s)
  | _ => cases hc

theorem requestOf_acquire {c : Instr} (h : requestOf c = some (Kind.acquire, f)) : c = .acquire f := by
  cases c with
  | acquire g => cases h; rfl
  | unknownRequestKind k g =>
    rw [requestOf] at h
    split_ifs at h with hk
    cases h
    exact absurd rfl hk
  | _ => cases h

/-- What an OPEN makes of the leases (R90, R119). -/
theorem State.takeOpen_spares (hd : HandlesDistinct s) (seq : Byte) (h : Addr) :
    Spares h s (s.takeOpen seq h) ∨ (s.closeDropsClear h = true ∧ (s.takeOpen seq h).lm.leases = []) := by
  unfold State.takeOpen
  split
  · split_ifs
    · exact .inl (.of_lm (State.openSession_lm h seq false s))
    · exact .inl (.of_lm (by simp))
  · split_ifs
    · exact .inl (.of_lm rfl)
    · split
      · exact .inl (.of_lm (by simp))
      · exact .inl (.of_lm rfl)
    · unfold State.replaceSession
      split_ifs with hdrop
      · exact .inr ⟨hdrop, rfl⟩
      · exact .inl ((State.closeSession_spares hd h).trans (.of_lm (State.openSession_lm h seq true _)))

theorem State.takeFrame_cases (k kind : Byte) (f : Frame) (take : Addr → State → State) (s : State) :
    (s.takeFrame k kind f take).lm = s.lm ∨ s.takeFrame k kind f take = take (frameHost f) (s.accepting f) := by
  unfold State.takeFrame
  split_ifs
  · exact .inr rfl
  · exact .inl rfl
  · exact .inl rfl

/-- Settles O60. -/
theorem requestsSpareOthersLeases : Obligations.RequestsSpareOthersLeases := by
  refine fun s t l hd hl => ⟨fun c kind f hc ht hn => ?_, fun sw f ht hn => ?_⟩
  · rcases exec_request_spares hd hc ht with rfl | hspares
    · obtain rfl := requestOf_acquire hc
      cases ht
      rcases State.takeRequest_lm_cases (run := State.takeAcquire f.payload) (State.noSession_lm f.seq) f s with
        hlm | ⟨x, hnew, he⟩
      · exact .inl (by rw [hlm]; exact hl)
      · rw [he]
        rcases State.takeAcquire_leases (s := s.taking Kind.acquire f) f.payload (frameHost f) hl with
          hstays | ⟨hu, hheld, hmanager, hmarked⟩
        · exact .inl hstays
        · rw [s.taking_isManager hnew] at hmanager
          exact .inr ⟨rfl, hu, hheld, ⟨x, hnew.found, of_decide_eq_true hmanager⟩, hmarked⟩
    · exact .inl (hspares l hl hn)
  · cases ht
    rcases State.takeFrame_cases FrameKind.request Kind.openSession f (State.takeOpen f.seq) (s.readSwitches sw) with
      hlm | he
    · exact .inl (by rw [hlm]; exact hl)
    · rw [he]
      rcases State.takeOpen_spares (s := (s.readSwitches sw).accepting f) hd f.seq (frameHost f) with hspares | ⟨hdrop, hnone⟩
      · exact .inl (hspares l hl hn)
      · obtain ⟨hc, hr⟩ := (State.closeDropsClear_iff _ _).1 hdrop
        exact .inr ⟨hc, hnone, hr⟩

end Sys2Proof.Machine
end
